-- ==== Sys2Proof/Word.lean ====
section
/-! DEFINITION. The two word types of the machine (spec 00_scope.md R5, R9): a byte and a 16-bit address.
Arithmetic is `BitVec` arithmetic, so `+` at width 8 is the spec's `+_8` and at width 16 its `+_16`. -/

namespace Sys2Proof

/-- `bits8`: A, X, Y, SP, a memory byte (R5). -/
abbrev Byte := BitVec 8

/-- `bits16`: PC, an address, a call-stack entry (R5, R33). -/
abbrev Address := BitVec 16

end Sys2Proof
end

