-- ==== Sys2Proof/Config.lean ====
section
/-! DEFINITION. What the spec leaves to the implementation (00_scope.md R6), each a parameter of `Load` or of
`Tick` and no state (10_state.md R21): RESET_* (D8) and MAPPER5_MODE_OFFSET (D14) of `load`, OPC_* (D1) and CALLSTACK_DEPTH
(D7) of a tick. They are plain data, so that a claim can hold for every choice. TICKS_PER_FRAME (D18) is a number that
`frameAdvance` takes. -/

namespace Sys2Proof

/-- The RESET_* parameters of R6 and R37: the values of A, X, Y, SP and the seven flags after a successful `Load`.
The spec says they are arbitrary (D8). -/
structure Config.ResetValues where
  a : Byte
  x : Byte
  y : Byte
  sp : Byte
  flagN : Bool
  flagV : Bool
  flagB : Bool
  flagD : Bool
  flagI : Bool
  flagZ : Bool
  flagC : Bool
  deriving DecidableEq, Repr

/-- The values R37 recommends for simulation: 0x00 for the registers and 0 for the flags.
DESIGN CHOICE (log entry 2): the spec gives no reset value. Unsafe. -/
def Config.zeroReset : Config.ResetValues :=
  { a := 0x00, x := 0x00, y := 0x00, sp := 0x00,
    flagN := false, flagV := false, flagB := false, flagD := false,
    flagI := false, flagZ := false, flagC := false }

/-- What `load` takes beside the image: RESET_* and MAPPER5_MODE_OFFSET (R6). The offset is OPEN (D14). -/
structure Config.LoadParams where
  reset : Config.ResetValues
  mapper5ModeOffset : Nat
  deriving DecidableEq, Repr

/-- The parameters OPC_* of R6 and R95: the opcode byte of each of the twenty instructions (D1). -/
structure Config.OpcodeMap where
  /-- OPC_BPL -/
  bpl : Byte
  /-- OPC_JSR -/
  jsr : Byte
  /-- OPC_BIT_ABS -/
  bitAbs : Byte
  /-- OPC_AND_IMM -/
  andImm : Byte
  /-- OPC_JMP_ABS -/
  jmpAbs : Byte
  /-- OPC_SEI -/
  sei : Byte
  /-- OPC_STA_ZP -/
  staZp : Byte
  /-- OPC_STX_ZP -/
  stxZp : Byte
  /-- OPC_DEY -/
  dey : Byte
  /-- OPC_STA_ABS -/
  staAbs : Byte
  /-- OPC_TXS -/
  txs : Byte
  /-- OPC_LDY_IMM -/
  ldyImm : Byte
  /-- OPC_LDX_IMM -/
  ldxImm : Byte
  /-- OPC_LDA_IMM -/
  ldaImm : Byte
  /-- OPC_LDA_ABS -/
  ldaAbs : Byte
  /-- OPC_LDA_ABSX -/
  ldaAbsX : Byte
  /-- OPC_LDA_INDY -/
  ldaIndY : Byte
  /-- OPC_CLD -/
  cld : Byte
  /-- OPC_NOP -/
  nop : Byte
  /-- OPC_BEQ -/
  beq : Byte
  deriving DecidableEq, Repr

/-- What a tick takes beside the state: OPC_* and CALLSTACK_DEPTH (R6), `none` for an unbounded call stack (D7). The capacity
decides nothing a tick does: no instruction tests the stack's length, a push always succeeds and the stack cannot overflow
(R34, R193; log entry 23). -/
structure Config.TickParams where
  opcodes : Config.OpcodeMap
  callStackDepth : Option Nat
  deriving DecidableEq, Repr

end Sys2Proof
end

