-- ==== Sys2Proof/Syntax.lean ====
section
/-! DEFINITION. The instructions: one constructor per row of spec/opcode_table.json, twenty instructions and the two
pseudo-entries PAD and UNSUPPORTED (30_encoding.md R94, R95). Operands are carried assembled: `d8` is the byte after the
opcode, `d16` the little-endian pair (R91, R100). -/

namespace Sys2Proof

/-- The twenty implemented instructions of R95, in the order of its table. -/
inductive Mnemonic where
  | bpl | jsr | bitAbs | andImm | jmpAbs | sei | staZp | stxZp | dey | staAbs
  | txs | ldyImm | ldxImm | ldaImm | ldaAbs | ldaAbsX | ldaIndY | cld | nop | beq
  deriving DecidableEq, Repr

/-- The formats of R91. -/
inductive Format where
  | imp | imm | zp | rel | abs | absx | indy0
  deriving DecidableEq, Repr

/-- The three arms of `decode(b)` in R94. -/
inductive OpcodeClass where
  | padding
  | instr (m : Mnemonic)
  | unsupported (b : Byte)
  deriving DecidableEq, Repr

/-- One constructor per row of spec/opcode_table.json, in the table's order. -/
inductive Instr where
  /-- BPL, branch-if-plus (R140) -/
  | bpl (d8 : Byte)
  /-- JSR, jump-to-subroutine (R141) -/
  | jsr (d16 : Address)
  /-- BIT abs, bit-test absolute (R150) -/
  | bitAbs (d16 : Address)
  /-- AND #, AND immediate (R151) -/
  | andImm (d8 : Byte)
  /-- JMP abs, jump absolute (R142) -/
  | jmpAbs (d16 : Address)
  /-- SEI, set-interrupt-disable (R152) -/
  | sei
  /-- STA zp, store-A zero-page (R170) -/
  | staZp (d8 : Byte)
  /-- STX zp, store-X zero-page (R171) -/
  | stxZp (d8 : Byte)
  /-- DEY, decrement-Y (R153) -/
  | dey
  /-- STA abs, store-A absolute (R172) -/
  | staAbs (d16 : Address)
  /-- TXS, transfer-X-to-stack (R154) -/
  | txs
  /-- LDY #, load-Y immediate (R173) -/
  | ldyImm (d8 : Byte)
  /-- LDX #, load-X immediate (R174) -/
  | ldxImm (d8 : Byte)
  /-- LDA #, load-A immediate (R175) -/
  | ldaImm (d8 : Byte)
  /-- LDA abs, load-A absolute (R176) -/
  | ldaAbs (d16 : Address)
  /-- LDA abs,X, load-A absolute,X (R177) -/
  | ldaAbsX (d16 : Address)
  /-- LDA (zp),Y, the load-A indirect,Y placeholder (R178): no operand is part of it -/
  | ldaIndY
  /-- CLD, clear-decimal (R155) -/
  | cld
  /-- NOP, no-op-equivalent (R156) -/
  | nop
  /-- BEQ, branch-if-equal (R143) -/
  | beq (d8 : Byte)
  /-- PAD, a run of zero bytes at PC (R97, R123) -/
  | pad
  /-- UNSUPPORTED, a non-zero byte that is none of the twenty (R98, R126) -/
  | unsupported (op : Byte)
  deriving DecidableEq, Repr

/-- Why the decoder gives no instruction for a list of bytes. The machine never meets either: it always has three bytes
to show the decoder (R101). -/
inductive DecodeReject where
  /-- the list is empty -/
  | noOpcodeByte
  /-- the list ends before the operand bytes of this opcode -/
  | operandMissing (op : Byte)
  deriving DecidableEq, Repr

end Sys2Proof
end

