-- ==== Sys2Proof/Decode.lean ====
section
/-! DEFINITION. Byte order, the opcode map, the decoder and the encoder (30_encoding.md R90 to R101). -/

namespace Sys2Proof

/-- `{hi, lo}`: the 16-bit value of two bytes (R9, R69). -/
def joinBytes (hi lo : Byte) : Address := hi ++ lo

/-- Bits 7..0 of a 16-bit value, the byte at the lower address (R69). -/
def lowByte (v : Address) : Byte := v.extractLsb' 0 8

/-- Bits 15..8 of a 16-bit value, the byte at the higher address (R69). -/
def highByte (v : Address) : Byte := v.extractLsb' 8 8

/-- The opcode byte a choice of the parameters OPC_* gives an instruction (R95). -/
def opcodeByteIn (ops : Config.OpcodeMap) : Mnemonic → Byte
  | .bpl => ops.bpl
  | .jsr => ops.jsr
  | .bitAbs => ops.bitAbs
  | .andImm => ops.andImm
  | .jmpAbs => ops.jmpAbs
  | .sei => ops.sei
  | .staZp => ops.staZp
  | .stxZp => ops.stxZp
  | .dey => ops.dey
  | .staAbs => ops.staAbs
  | .txs => ops.txs
  | .ldyImm => ops.ldyImm
  | .ldxImm => ops.ldxImm
  | .ldaImm => ops.ldaImm
  | .ldaAbs => ops.ldaAbs
  | .ldaAbsX => ops.ldaAbsX
  | .ldaIndY => ops.ldaIndY
  | .cld => ops.cld
  | .nop => ops.nop
  | .beq => ops.beq

/-- The parameters OPC_* at the defaults of R95. PRESUMED (log entry 1): the source gives no opcode byte. Unsafe if a value
is wrong. -/
def defaultOpcodes : Config.OpcodeMap :=
  { bpl := 0x10
    jsr := 0x20
    bitAbs := 0x2C
    andImm := 0x29
    jmpAbs := 0x4C
    sei := 0x78
    staZp := 0x85
    stxZp := 0x86
    dey := 0x88
    staAbs := 0x8D
    txs := 0x9A
    ldyImm := 0xA0
    ldxImm := 0xA2
    ldaImm := 0xA9
    ldaAbs := 0xAD
    ldaAbsX := 0xBD
    ldaIndY := 0xB1
    cld := 0xD8
    nop := 0xEA
    beq := 0xF0 }

/-- The opcode byte of an instruction at the defaults. -/
def opcodeByte (m : Mnemonic) : Byte := opcodeByteIn defaultOpcodes m

/-- The parameters of a tick at the defaults of R6: the opcode bytes of R95 and an unbounded call stack. -/
def defaultTickParams : Config.TickParams := { opcodes := defaultOpcodes, callStackDepth := none }

/-- The twenty rows of R95. -/
def allMnemonics : List Mnemonic :=
  [.bpl, .jsr, .bitAbs, .andImm, .jmpAbs, .sei, .staZp, .stxZp, .dey, .staAbs,
   .txs, .ldyImm, .ldxImm, .ldaImm, .ldaAbs, .ldaAbsX, .ldaIndY, .cld, .nop, .beq]

/-- What R96 requires of any choice of OPC_*: twenty pairwise distinct bytes, none of them the padding byte. -/
def opcodesWf (ops : Config.OpcodeMap) : Bool :=
  decide ((allMnemonics.map (opcodeByteIn ops)).Nodup) && allMnemonics.all (fun m => opcodeByteIn ops m != 0x00)

/-- The `format` column of R95. -/
def formatOf : Mnemonic → Format
  | .bpl => .rel
  | .jsr => .abs
  | .bitAbs => .abs
  | .andImm => .imm
  | .jmpAbs => .abs
  | .sei => .imp
  | .staZp => .zp
  | .stxZp => .zp
  | .dey => .imp
  | .staAbs => .abs
  | .txs => .imp
  | .ldyImm => .imm
  | .ldxImm => .imm
  | .ldaImm => .imm
  | .ldaAbs => .abs
  | .ldaAbsX => .absx
  | .ldaIndY => .indy0
  | .cld => .imp
  | .nop => .imp
  | .beq => .rel

/-- The "bytes consumed" column of R91. -/
def formatLength : Format → Nat
  | .imp => 1
  | .imm => 2
  | .zp => 2
  | .rel => 2
  | .abs => 3
  | .absx => 3
  | .indy0 => 1

/-- `decode(b)` of R94: a total function of the opcode byte, at any choice of OPC_*. -/
def classifyIn (ops : Config.OpcodeMap) (b : Byte) : OpcodeClass :=
  if b = 0x00 then .padding
  else match allMnemonics.find? (fun m => opcodeByteIn ops m == b) with
    | some m => .instr m
    | none => .unsupported b

/-- `decode(b)` at the defaults. -/
def classify (b : Byte) : OpcodeClass := classifyIn defaultOpcodes b

/-- The length of what starts with this opcode byte (R93). -/
def opcodeLengthIn (ops : Config.OpcodeMap) (b : Byte) : Nat :=
  match classifyIn ops b with
  | .padding => 1
  | .instr m => formatLength (formatOf m)
  | .unsupported _ => 1

/-- The length of what starts with this opcode byte, at the defaults. -/
def opcodeLength (b : Byte) : Nat := opcodeLengthIn defaultOpcodes b

/-- Attach the operand of R91 to an instruction: `b1` is W[15:8], `b2` is W[23:16]. -/
def assemble (m : Mnemonic) (b1 b2 : Byte) : Instr :=
  match m with
  | .bpl => .bpl b1
  | .jsr => .jsr (joinBytes b2 b1)
  | .bitAbs => .bitAbs (joinBytes b2 b1)
  | .andImm => .andImm b1
  | .jmpAbs => .jmpAbs (joinBytes b2 b1)
  | .sei => .sei
  | .staZp => .staZp b1
  | .stxZp => .stxZp b1
  | .dey => .dey
  | .staAbs => .staAbs (joinBytes b2 b1)
  | .txs => .txs
  | .ldyImm => .ldyImm b1
  | .ldxImm => .ldxImm b1
  | .ldaImm => .ldaImm b1
  | .ldaAbs => .ldaAbs (joinBytes b2 b1)
  | .ldaAbsX => .ldaAbsX (joinBytes b2 b1)
  | .ldaIndY => .ldaIndY
  | .cld => .cld
  | .nop => .nop
  | .beq => .beq b1

/-- The instruction of the word W = {b2, b1, b0}; bytes its format does not have are ignored (R91). Total. -/
def decodeWordIn (ops : Config.OpcodeMap) (b0 b1 b2 : Byte) : Instr :=
  match classifyIn ops b0 with
  | .padding => .pad
  | .instr m => assemble m b1 b2
  | .unsupported b => .unsupported b

/-- The instruction of a word at the defaults. -/
def decodeWord (b0 b1 b2 : Byte) : Instr := decodeWordIn defaultOpcodes b0 b1 b2

/-- The decoder on bytes in memory order: the first instruction and the bytes after it, or why there is none. -/
def decodeIn (ops : Config.OpcodeMap) (bytes : List Byte) : Except DecodeReject (Instr × List Byte) :=
  match bytes with
  | [] => .error .noOpcodeByte
  | b0 :: rest =>
    if rest.length + 1 < opcodeLengthIn ops b0 then .error (.operandMissing b0)
    else .ok (decodeWordIn ops b0 (rest.getD 0 0) (rest.getD 1 0), rest.drop (opcodeLengthIn ops b0 - 1))

/-- The decoder at the defaults. -/
def decode (bytes : List Byte) : Except DecodeReject (Instr × List Byte) := decodeIn defaultOpcodes bytes

/-- The bytes of a format with an 8-bit operand. -/
def encode8 (ops : Config.OpcodeMap) (m : Mnemonic) (d8 : Byte) : List Byte := [opcodeByteIn ops m, d8]

/-- The bytes of a format with a 16-bit operand, low byte first (R69, R91). -/
def encode16 (ops : Config.OpcodeMap) (m : Mnemonic) (d16 : Address) : List Byte :=
  [opcodeByteIn ops m, lowByte d16, highByte d16]

/-- The bytes of an instruction in memory order (R90, R91, R95). -/
def encodeIn (ops : Config.OpcodeMap) : Instr → List Byte
  | .bpl d8 => encode8 ops .bpl d8
  | .jsr d16 => encode16 ops .jsr d16
  | .bitAbs d16 => encode16 ops .bitAbs d16
  | .andImm d8 => encode8 ops .andImm d8
  | .jmpAbs d16 => encode16 ops .jmpAbs d16
  | .sei => [opcodeByteIn ops .sei]
  | .staZp d8 => encode8 ops .staZp d8
  | .stxZp d8 => encode8 ops .stxZp d8
  | .dey => [opcodeByteIn ops .dey]
  | .staAbs d16 => encode16 ops .staAbs d16
  | .txs => [opcodeByteIn ops .txs]
  | .ldyImm d8 => encode8 ops .ldyImm d8
  | .ldxImm d8 => encode8 ops .ldxImm d8
  | .ldaImm d8 => encode8 ops .ldaImm d8
  | .ldaAbs d16 => encode16 ops .ldaAbs d16
  | .ldaAbsX d16 => encode16 ops .ldaAbsX d16
  | .ldaIndY => [opcodeByteIn ops .ldaIndY]
  | .cld => [opcodeByteIn ops .cld]
  | .nop => [opcodeByteIn ops .nop]
  | .beq d8 => encode8 ops .beq d8
  | .pad => [0x00]
  | .unsupported op => [op]

/-- The bytes of an instruction at the defaults. -/
def encode (i : Instr) : List Byte := encodeIn defaultOpcodes i

/-- Bytes an instruction accounts for (R91, R92): its format's length, and one byte for PAD and UNSUPPORTED (R93). -/
def instrLength : Instr → Nat
  | .bpl _ => formatLength .rel
  | .jsr _ => formatLength .abs
  | .bitAbs _ => formatLength .abs
  | .andImm _ => formatLength .imm
  | .jmpAbs _ => formatLength .abs
  | .sei => formatLength .imp
  | .staZp _ => formatLength .zp
  | .stxZp _ => formatLength .zp
  | .dey => formatLength .imp
  | .staAbs _ => formatLength .abs
  | .txs => formatLength .imp
  | .ldyImm _ => formatLength .imm
  | .ldxImm _ => formatLength .imm
  | .ldaImm _ => formatLength .imm
  | .ldaAbs _ => formatLength .abs
  | .ldaAbsX _ => formatLength .absx
  | .ldaIndY => formatLength .indy0
  | .cld => formatLength .imp
  | .nop => formatLength .imp
  | .beq _ => formatLength .rel
  | .pad => 1
  | .unsupported _ => 1

/-- Byte `k` of the low `nbits` bits of `w`, byte 0 the first in memory; every bit above `nbits` is 0. -/
def tableByte (nbits w k : Nat) : Byte := BitVec.ofNat 8 (w % 2 ^ nbits / 256 ^ k)

/-- The instruction the decoder at the defaults reads from the bits `w` of a row of spec/opcode_table.json, laid out in memory order. -/
def decodeTableWord (nbits w : Nat) : Option Instr :=
  match decode [tableByte nbits w 0, tableByte nbits w 1, tableByte nbits w 2] with
  | .ok (i, _) => some i
  | .error _ => none

end Sys2Proof
end

