-- ==== Sys2Proof/Machine/Memory.lean ====
section
/-! DEFINITION. The 64 KiB address space as plain data (20_memory.md R50, R51, R69 to R72): a list of (address, byte)
cells in one canonical form, read and written one byte at a time. -/

namespace Sys2Proof.Machine

/-- Cells of the address space; an address not listed reads as `Memory.fill`. -/
abbrev Memory := List Host.Cell

/-- What an unlisted address reads as: every byte no copy rule and no store wrote is 0x00 (R65, D10; log entry 12). -/
def Memory.fill : Byte := 0x00

/-- The fixed address of the reset vector (R53, R67). -/
def resetVector : Address := 0xFFFC

/-- The canonical form: addresses strictly rising and inside the address space, no cell equal to what an unlisted address
reads as. -/
abbrev Memory.wf (m : Memory) : Prop :=
  List.Pairwise (fun c d : Host.Cell => c.1 < d.1) m ∧ ∀ c ∈ m, c.1 < 0x10000 ∧ c.2 ≠ Memory.fill

/-- The byte at an address: the first cell listed for it. -/
def Memory.readAt : Memory → Nat → Byte
  | [], _ => Memory.fill
  | (k, v) :: rest, addr => if k = addr then v else Memory.readAt rest addr

/-- The cells of every other address. -/
def Memory.eraseAt (m : Memory) (addr : Nat) : Memory := m.filter (fun c => c.1 != addr)

/-- Put a cell before the first cell of a higher address. -/
def Memory.insertAt : Memory → Nat → Byte → Memory
  | [], addr, v => [(addr, v)]
  | (k, w) :: rest, addr, v =>
    if addr < k then (addr, v) :: (k, w) :: rest else (k, w) :: Memory.insertAt rest addr v

/-- Set the byte at an address and no other (R72), keeping the canonical form: writing `Memory.fill` lists nothing. -/
def Memory.writeAt (m : Memory) (addr : Nat) (v : Byte) : Memory :=
  if v = Memory.fill then m.eraseAt addr else (m.eraseAt addr).insertAt addr v

/-- `MemRead(addr, 2)` = {MemRead(addr +_16 1, 1), MemRead(addr, 1)}, with the 16-bit wrap (R71, D2; log entry 5). -/
def Memory.readWord (m : Memory) (addr : Address) : Address :=
  joinBytes (m.readAt (addr + 1).toNat) (m.readAt addr.toNat)

/-- The lowest address from `start` on, below 0xFFFF, that holds a non-zero byte, or 0xFFFF if there is none: where the
padding skip of R123 ends. Over a canonical memory the walk reads one cell. -/
def Memory.paddingEnd (m : Memory) (start : Nat) : Nat :=
  m.foldl (fun best c => if start ≤ c.1 ∧ c.1 < best ∧ m.readAt c.1 ≠ 0x00 then c.1 else best) 0xFFFF

/-- The cells of bytes placed one after another from an address on. -/
def Memory.cellsFrom : Nat → List Byte → Memory
  | _, [] => []
  | base, b :: rest =>
    if b = Memory.fill then Memory.cellsFrom (base + 1) rest
    else (base, b) :: Memory.cellsFrom (base + 1) rest

end Sys2Proof.Machine
end

