-- ==== Sys2Proof/Machine/State.lean ====
section
/-! DEFINITION. The machine state of 10_state.md R20, the state after reset (R37), the tick outcomes (40_fetch_decode.md
R127), and the reasons a step or a load can stop. -/

namespace Sys2Proof.Machine

/-- The tuple S of R20, and nothing else. -/
structure State where
  /-- A, the accumulator (R22) -/
  a : Byte
  /-- X, index register (R23) -/
  x : Byte
  /-- Y, index register (R24) -/
  y : Byte
  /-- SP, which no instruction reads or writes (R25) -/
  sp : Byte
  /-- PC, the address of the next byte to examine (R27) -/
  pc : Address
  /-- N, Negative (R29, R30) -/
  flagN : Bool
  /-- V, Overflow (R29, R30) -/
  flagV : Bool
  /-- B, Break, never written (R30) -/
  flagB : Bool
  /-- D, Decimal (R30) -/
  flagD : Bool
  /-- I, InterruptDisable (R30) -/
  flagI : Bool
  /-- Z, Zero (R29, R30) -/
  flagZ : Bool
  /-- C, Carry, never written (R30) -/
  flagC : Bool
  /-- the stall latch (R36) -/
  stall : Bool
  /-- the call stack, oldest entry first; pushes append (R33) -/
  cs : List Address
  /-- the 64 KiB address space (20_memory.md R50) -/
  mem : Memory
  deriving DecidableEq, Repr

/-- Why the machine does not come to exist. Only `load` and `loadChecked` raise one: no tick and no instruction faults
(R193). -/
inductive Fault where
  /-- raised by `loadChecked`, the loader's check before the mapper runs: the raw buffer is shorter than header, PRG and
  CHR together (R194). Safe: the spec says there is no machine (R68). -/
  | invalidRom
  /-- raised by `load`: mapper id outside 0 and 5 (R64, R194). Safe: the spec says there is no machine (R68). -/
  | unsupportedMapper
  /-- raised by `load`: mapper-5 mode byte absent or not zero (R63, R194). Safe: the spec says there is no machine (R68). -/
  | unsupportedMapperMode
  deriving DecidableEq, Repr

/-- Why an instruction has no meaning. Nothing raises one: every row of the opcode table has its meaning. -/
inductive Refusal where
  /-- raised by an arm of `exec` whose instruction has no meaning yet; no arm is left so. Safe. -/
  | notModelled (mnemonic : String)
  deriving DecidableEq, Repr

/-- What a tick reports (R127, R190): an output, not state. `skips` counts padding bytes, `opaddr` is the address of the
opcode byte `op`. -/
inductive TickOutcome where
  /-- PC was 0xFFFF at the start of the tick (R121, R191) -/
  | endOfMemory
  /-- the stall latch was set at the start of the tick (R122) -/
  | stalled
  /-- the padding skip reached 0xFFFF (R123) -/
  | skippedToEnd (skips : Nat)
  /-- an implemented instruction ran (R125) -/
  | executed (op : Byte) (opaddr : Address) (skips : Nat)
  /-- a byte that is no implemented opcode was fetched (R126, R192) -/
  | unsupported (op : Byte) (opaddr : Address) (skips : Nat)
  deriving DecidableEq, Repr

/-- The machine right after a successful `Load` (R37) of the image that places no byte, mapper 0 with no PRG and no CHR
(log entry 3): memory lists nothing, PC is the reset vector read from it, the latch is clear, the call stack empty.
A, X, Y, SP and the flags are zero: DESIGN CHOICE (log entry 2), the spec gives no value; unsafe. -/
def State.reset : State :=
  { a := Config.zeroReset.a, x := Config.zeroReset.x, y := Config.zeroReset.y, sp := Config.zeroReset.sp,
    pc := Memory.readWord [] resetVector,
    flagN := Config.zeroReset.flagN, flagV := Config.zeroReset.flagV, flagB := Config.zeroReset.flagB,
    flagD := Config.zeroReset.flagD, flagI := Config.zeroReset.flagI, flagZ := Config.zeroReset.flagZ,
    flagC := Config.zeroReset.flagC,
    stall := false, cs := [], mem := [] }

/-- The answer of a meaning. -/
abbrev Result := Host.Outcome State Fault Refusal

end Sys2Proof.Machine
end

