-- ==== Sys2Proof/Machine/Ops.lean ====
section
/-! DEFINITION. The named operations over registers, call stack and memory: the pseudocode primitives of 00_scope.md R10.
There is no exception entry and no exception return among them: the machine has no traps (60_exceptions.md R196, R199). -/

namespace Sys2Proof.Machine

/-- The address at which a tick does nothing (R27, R121). -/
def endOfMemory : Address := 0xFFFF

/-- `A <- v` -/
def State.setA (s : State) (v : Byte) : State := { s with a := v }

/-- `X <- v` -/
def State.setX (s : State) (v : Byte) : State := { s with x := v }

/-- `Y <- v` -/
def State.setY (s : State) (v : Byte) : State := { s with y := v }

/-- `PC <- target` -/
def State.setPc (s : State) (target : Address) : State := { s with pc := target }

/-- `PC <- PC +_16 n`, wrapping (R28, D2; log entry 5). -/
def State.advance (s : State) (n : Address) : State := s.setPc (s.pc + n)

/-- `N <- f` -/
def State.setFlagN (s : State) (f : Bool) : State := { s with flagN := f }

/-- `V <- f` -/
def State.setFlagV (s : State) (f : Bool) : State := { s with flagV := f }

/-- `D <- f` -/
def State.setFlagD (s : State) (f : Bool) : State := { s with flagD := f }

/-- `I <- f` -/
def State.setFlagI (s : State) (f : Bool) : State := { s with flagI := f }

/-- `Z <- f` -/
def State.setFlagZ (s : State) (f : Bool) : State := { s with flagZ := f }

/-- `stall <- f` -/
def State.setStall (s : State) (f : Bool) : State := { s with stall := f }

/-- `push(v)`: append one 16-bit entry at the end of `cs`; no memory, no SP (R33, D7; log entry 10). -/
def State.push (s : State) (v : Address) : State := { s with cs := s.cs ++ [v] }

/-- `push(v)` at the capacity CALLSTACK_DEPTH (R6, R34): no instruction tests the length of `cs`, a push always succeeds and
`cs` grows by one entry and never shrinks (R34, R236), so at every capacity it is the same append. DEDUCED (log entry 23). -/
def State.pushWithin (_depth : Option Nat) (s : State) (v : Address) : State := s.push v

/-- `MemRead(addr, 1)`: never faults, changes nothing (R70). -/
def State.read (s : State) (addr : Address) : Byte := s.mem.readAt addr.toNat

/-- `MemRead(addr, 2)` (R71). -/
def State.readWord (s : State) (addr : Address) : Address := s.mem.readWord addr

/-- `MemWrite(addr, 1, v)`: never faults, changes one location (R72). -/
def State.write (s : State) (addr : Address) (v : Byte) : State :=
  { s with mem := s.mem.writeAt addr.toNat v }

/-- The padding skip of R123: PC moves to the first non-zero byte, or to 0xFFFF. -/
def State.skipPadding (s : State) : State := s.setPc (BitVec.ofNat 16 (s.mem.paddingEnd s.pc.toNat))

/-- The instruction whose opcode byte is at PC, its operand bytes read at PC +_16 1 and PC +_16 2 (R90, R101). -/
def State.instrAtPc (ops : Config.OpcodeMap) (s : State) : Instr :=
  decodeWordIn ops (s.read s.pc) (s.read (s.pc + 1)) (s.read (s.pc + 2))

/-- The bits of an opcode-table row stored at PC, in memory order. Where a tick would not fetch, the state is first made
to fetch: the stall latch is cleared, and a PC of 0xFFFF, where nothing is ever fetched, becomes 0x0000 (log entry 4). -/
def State.placeTableWord (s : State) (nbits w : Nat) : State :=
  let at0 := if s.pc = endOfMemory then (0 : Address) else s.pc
  ((((s.setStall false).setPc at0).write at0 (tableByte nbits w 0)).write (at0 + 1) (tableByte nbits w 1)).write
    (at0 + 2) (tableByte nbits w 2)

end Sys2Proof.Machine
end

