-- ==== Sys2Proof/Machine/Operands.lean ====
section
/-! DEFINITION. The addressing modes and what each makes of an operand (30_encoding.md R100, 43_load_store.md R179).
Immediate operands are used as they are; no operand is sign-extended, scaled or indexed. -/

namespace Sys2Proof.Machine

/-- Effective address of the zero-page mode: `zext_16(d8)` (R54, R100). -/
def zeroPageAddress (d8 : Byte) : Address := d8.setWidth 16

/-- Effective address of the absolute mode and of the JNES absolute,X form: `d16` itself, X is no part of it (R177, R179). -/
def absoluteAddress (d16 : Address) : Address := d16

/-- The data byte of the absolute modes. -/
def absoluteOperand (d16 : Address) (s : State) : Byte := s.read (absoluteAddress d16)

/-- Where a taken BPL goes from PC: the raw byte added unsigned (R140, wrapping by D2). -/
def bplTarget (pc : Address) (d8 : Byte) : Address := pc + d8.setWidth 16

/-- The BEQ bias (R143). -/
def beqBias : Int := 127

/-- Where a taken BEQ puts PC before its final increment: integer `PC + (d8 - 127)` reduced modulo 2^16 (R143, D6; log
entry 9). -/
def beqTarget (pc : Address) (d8 : Byte) : Address :=
  BitVec.ofInt 16 ((pc.toNat : Int) + ((d8.toNat : Int) - beqBias))

end Sys2Proof.Machine
end

