-- ==== Sys2Proof/Machine/Branch.lean ====
section
/-! DEFINITION. Control transfer (41_branch_jump.md). At entry PC is the address of the first operand byte (00_scope.md
R11). -/

namespace Sys2Proof.Machine

/-- BPL (R140): taken, the operand byte itself is not stepped over. -/
def execBpl (d8 : Byte) (s : State) : Result :=
  if s.flagN then .next (s.advance 1) else .next (s.setPc (bplTarget s.pc d8))

/-- JSR (R141) at a call-stack capacity: push the address after the operand, then jump. -/
def execJsrWithin (depth : Option Nat) (d16 : Address) (s : State) : Result :=
  .next ((s.pushWithin depth (s.pc + 2)).setPc d16)

/-- JSR (R141) at the default capacity. -/
def execJsr (d16 : Address) (s : State) : Result :=
  execJsrWithin defaultTickParams.callStackDepth d16 s

/-- JMP abs (R142). -/
def execJmpAbs (d16 : Address) (s : State) : Result :=
  .next (s.setPc d16)

/-- BEQ (R143): the conditional sum, then the unconditional increment. -/
def execBeq (d8 : Byte) (s : State) : Result :=
  if s.flagZ then .next ((s.setPc (beqTarget s.pc d8)).advance 1) else .next (s.advance 1)

end Sys2Proof.Machine
end

