-- ==== Sys2Proof/Machine/Flags.lean ====
section
/-! DEFINITION. The flag computations of 10_state.md R29, R30. -/

namespace Sys2Proof.Machine

/-- `v == 0x00` -/
def isZero (v : Byte) : Bool := v == 0x00

/-- `v[7]` -/
def bit7 (v : Byte) : Bool := v.getLsbD 7

/-- `v[6]` -/
def bit6 (v : Byte) : Bool := v.getLsbD 6

/-- `SetZN(v)`: Z is whether the result byte is zero, N its bit 7 (R29). -/
def State.setZN (s : State) (v : Byte) : State := (s.setFlagZ (isZero v)).setFlagN (bit7 v)

/-- The flags of bit-test: N and V are bits 7 and 6 of the memory byte alone, Z is whether `A & m` is zero (R150). -/
def State.setBitTest (s : State) (m : Byte) : State :=
  ((s.setFlagN (bit7 m)).setFlagV (bit6 m)).setFlagZ (isZero (s.a &&& m))

end Sys2Proof.Machine
end

