-- ==== Sys2Proof/Machine/LoadStore.lean ====
section
/-! DEFINITION. Loads and stores (43_load_store.md). At entry PC is the address of the first operand byte (00_scope.md
R11). -/

namespace Sys2Proof.Machine

/-- The effect all loads of A share: `A <- v; SetZN(A)`. -/
def State.loadA (s : State) (v : Byte) : State := (s.setA v).setZN v

/-- STA zp (R170). -/
def execStaZp (d8 : Byte) (s : State) : Result :=
  .next ((s.write (zeroPageAddress d8) s.a).advance 1)

/-- STX zp (R171). -/
def execStxZp (d8 : Byte) (s : State) : Result :=
  .next ((s.write (zeroPageAddress d8) s.x).advance 1)

/-- STA abs (R172): the operand was read before the write. -/
def execStaAbs (d16 : Address) (s : State) : Result :=
  .next ((s.write (absoluteAddress d16) s.a).advance 2)

/-- LDY # (R173). -/
def execLdyImm (d8 : Byte) (s : State) : Result :=
  .next (((s.setY d8).setZN d8).advance 1)

/-- LDX # (R174). -/
def execLdxImm (d8 : Byte) (s : State) : Result :=
  .next (((s.setX d8).setZN d8).advance 1)

/-- LDA # (R175). -/
def execLdaImm (d8 : Byte) (s : State) : Result :=
  .next ((s.loadA d8).advance 1)

/-- LDA abs (R176). -/
def execLdaAbs (d16 : Address) (s : State) : Result :=
  .next ((s.loadA (absoluteOperand d16 s)).advance 2)

/-- LDA abs,X (R177): X is added to the loaded byte, not to the address. -/
def execLdaAbsX (d16 : Address) (s : State) : Result :=
  .next ((s.loadA (absoluteOperand d16 s + s.x)).advance 2)

/-- LDA (zp),Y (R178): decoded, no effect, its operand byte not consumed (D5; log entry 8). -/
def execLdaIndY (s : State) : Result := .next s

end Sys2Proof.Machine
end

