-- ==== Sys2Proof/Machine/Logic.lean ====
section
/-! DEFINITION. Logic, flag, register and no-op instructions (42_logic_flag.md). At entry PC is the address of the first
operand byte (00_scope.md R11), so an implied-operand instruction leaves it as it is. -/

namespace Sys2Proof.Machine

/-- BIT abs (R150). -/
def execBitAbs (d16 : Address) (s : State) : Result :=
  .next ((s.setBitTest (absoluteOperand d16 s)).advance 2)

/-- AND # (R151). -/
def execAndImm (d8 : Byte) (s : State) : Result :=
  .next (((s.setA (s.a &&& d8)).setZN (s.a &&& d8)).advance 1)

/-- SEI (R152). -/
def execSei (s : State) : Result := .next (s.setFlagI true)

/-- DEY (R153): the borrow is dropped. -/
def execDey (s : State) : Result := .next ((s.setY (s.y - 1)).setZN (s.y - 1))

/-- TXS (R154) at a call-stack capacity: push `zext_16(X)`; SP is not written. -/
def execTxsWithin (depth : Option Nat) (s : State) : Result := .next (s.pushWithin depth (s.x.setWidth 16))

/-- TXS (R154) at the default capacity. -/
def execTxs (s : State) : Result := execTxsWithin defaultTickParams.callStackDepth s

/-- CLD (R155). -/
def execCld (s : State) : Result := .next (s.setFlagD false)

/-- NOP (R156): set the stall latch. -/
def execNop (s : State) : Result := .next (s.setStall true)

end Sys2Proof.Machine
end

