-- ==== Sys2Proof/Machine/Pseudo.lean ====
section
/-! DEFINITION. The two pseudo-entries of the opcode table, PAD and UNSUPPORTED (40_fetch_decode.md R123, R126). -/

namespace Sys2Proof.Machine

/-- PAD (R123, step 3 of a tick): skip the run of zero bytes at PC, not past 0xFFFF. It runs before the opcode fetch, so
PC at entry is the address of the first byte to examine (log entry 18). -/
def execPad (s : State) : Result := .next s.skipPadding

/-- UNSUPPORTED (R126): no effect beyond the fetch; its byte is given to the tick outcome only. -/
def execUnsupported (_op : Byte) (s : State) : Result := .next s

end Sys2Proof.Machine
end

