-- ==== Sys2Proof/Machine/Dispatch.lean ====
section
/-! DEFINITION. The dispatch of 40_fetch_decode.md R125: one arm per row of spec/opcode_table.json. -/

namespace Sys2Proof.Machine

def exec (i : Instr) (s : State) : Host.Outcome State Fault Refusal :=
  match i with
  | .bpl d8 => Sys2Proof.Machine.execBpl d8 s
  | .jsr d16 => Sys2Proof.Machine.execJsr d16 s
  | .bitAbs d16 => Sys2Proof.Machine.execBitAbs d16 s
  | .andImm d8 => Sys2Proof.Machine.execAndImm d8 s
  | .jmpAbs d16 => Sys2Proof.Machine.execJmpAbs d16 s
  | .sei => Sys2Proof.Machine.execSei s
  | .staZp d8 => Sys2Proof.Machine.execStaZp d8 s
  | .stxZp d8 => Sys2Proof.Machine.execStxZp d8 s
  | .dey => Sys2Proof.Machine.execDey s
  | .staAbs d16 => Sys2Proof.Machine.execStaAbs d16 s
  | .txs => Sys2Proof.Machine.execTxs s
  | .ldyImm d8 => Sys2Proof.Machine.execLdyImm d8 s
  | .ldxImm d8 => Sys2Proof.Machine.execLdxImm d8 s
  | .ldaImm d8 => Sys2Proof.Machine.execLdaImm d8 s
  | .ldaAbs d16 => Sys2Proof.Machine.execLdaAbs d16 s
  | .ldaAbsX d16 => Sys2Proof.Machine.execLdaAbsX d16 s
  | .ldaIndY => Sys2Proof.Machine.execLdaIndY s
  | .cld => Sys2Proof.Machine.execCld s
  | .nop => Sys2Proof.Machine.execNop s
  | .beq d8 => Sys2Proof.Machine.execBeq d8 s
  | .pad => Sys2Proof.Machine.execPad s
  | .unsupported op => Sys2Proof.Machine.execUnsupported op s

end Sys2Proof.Machine
end

