-- ==== Sys2Proof/Machine/Tick.lean ====
section
/-! DEFINITION. One tick (40_fetch_decode.md R120): the five numbered steps, with the outcome each reports (R127), at any
choice of the parameters a tick takes (10_state.md R21) and at their defaults. -/

namespace Sys2Proof.Machine

/-- A tick's answer: the state after it and what it reports. -/
abbrev TickResult := Host.Outcome (State × TickOutcome) Fault Refusal

/-- An instruction's rule at a choice of the parameters: only the two that push take one, the
capacity of the call stack. -/
def execIn (p : Config.TickParams) (i : Instr) (s : State) : Result :=
  match i with
  | .jsr d16 => execJsrWithin p.callStackDepth d16 s
  | .txs => execTxsWithin p.callStackDepth s
  | .bpl _ | .bitAbs _ | .andImm _ | .jmpAbs _ | .sei | .staZp _ | .stxZp _ | .dey | .staAbs _ | .ldyImm _ | .ldxImm _
  | .ldaImm _ | .ldaAbs _ | .ldaAbsX _ | .ldaIndY | .cld | .nop | .beq _ | .pad | .unsupported _ => exec i s

/-- Which report the fetched byte ends its tick with (R120 step 5). A zero byte is never fetched (step 3 has left a
non-zero byte at PC), so its arm is not reached. -/
def reportOf (ops : Config.OpcodeMap) (op : Byte) (opaddr : Address) (skips : Nat) : TickOutcome :=
  match classifyIn ops op with
  | .padding => .skippedToEnd skips
  | .instr _ => .executed op opaddr skips
  | .unsupported _ => .unsupported op opaddr skips

/-- Steps 4 and 5 (R124, R125): fetch at PC, advance PC by one, run the instruction's rule. -/
def fetchAndDispatch (p : Config.TickParams) (skips : Nat) (s : State) : TickResult :=
  match execIn p (s.instrAtPc p.opcodes) (s.advance 1) with
  | .next t => .next (t, reportOf p.opcodes (s.read s.pc) s.pc skips)
  | .fault r => .fault r
  | .refused r => .refused r

/-- Step 3 (R123): run PAD; end the tick at 0xFFFF, else go on to the fetch. -/
def skipThenFetch (p : Config.TickParams) (s : State) : TickResult :=
  match execIn p .pad s with
  | .next t =>
    if t.pc = endOfMemory then .next (t, .skippedToEnd (t.pc.toNat - s.pc.toNat))
    else fetchAndDispatch p (t.pc.toNat - s.pc.toNat) t
  | .fault r => .fault r
  | .refused r => .refused r

/-- `Tick(S)` of R120: end of memory (R121), stall (R122), padding skip, fetch, dispatch, in this order (R198), at
a choice of the parameters. -/
def tickIn (p : Config.TickParams) (s : State) : TickResult :=
  if s.pc = endOfMemory then .next (s, .endOfMemory)
  else if s.stall then .next (s.setStall false, .stalled)
  else skipThenFetch p s

/-- A tick at the defaults. -/
def tick (s : State) : TickResult := tickIn defaultTickParams s

/-- A tick's state without its report. -/
def tickState (r : TickResult) : Result :=
  match r with
  | .next p => .next p.1
  | .fault r => .fault r
  | .refused r => .refused r

/-- The state after a tick at a choice of the parameters. -/
def stepIn (p : Config.TickParams) (s : State) : Result := tickState (tickIn p s)

end Sys2Proof.Machine
end

