-- ==== Sys2Proof/Machine/Step.lean ====
section
/-! DEFINITION. The one step of the machine is one tick (00_scope.md R7) at the default parameters; its report is dropped here and kept by `tick`. -/

namespace Sys2Proof.Machine

def step (s : State) : Host.Outcome State Fault Refusal := tickState (tick s)

/-- The state with an opcode-table row's bits stored where the next tick fetches. -/
def State.withFetchWord (s : State) (nbits w : Nat) : State := s.placeTableWord nbits w

end Sys2Proof.Machine
end

