-- ==== Sys2Proof/Machine/Interface.lean ====
section
/-! DEFINITION. The rest of the block's interface (00_scope.md R8): `Tick(ctrl_in)`, `Observe`, a run up to its end
(70_reset_and_hazards.md R224), and a frame request's fixed number of ticks (R238). -/

namespace Sys2Proof.Machine

/-- `Tick(ctrl_in)`, with the parameters it takes (R21): the controller value is accepted and no rule reads it (R8, R203). -/
def tickWithInput {Ctrl : Type} (p : Config.TickParams) (_ctrlIn : Ctrl) (s : State) : TickResult := tickIn p s

/-- The state elements of 10_state.md R20. -/
inductive Element where
  | a | x | y | sp | pc | flagN | flagV | flagB | flagD | flagI | flagZ | flagC | stall | cs
  | mem (addr : Address)
  deriving DecidableEq, Repr

/-- A state element's value. -/
inductive Observed where
  | byte (v : Byte)
  | word (v : Address)
  | bit (f : Bool)
  | words (l : List Address)
  deriving DecidableEq, Repr

/-- `Observe`: read any state element without changing it (R8, R205). -/
def observe (s : State) : Element → Observed
  | .a => .byte s.a
  | .x => .byte s.x
  | .y => .byte s.y
  | .sp => .byte s.sp
  | .pc => .word s.pc
  | .flagN => .bit s.flagN
  | .flagV => .bit s.flagV
  | .flagB => .bit s.flagB
  | .flagD => .bit s.flagD
  | .flagI => .bit s.flagI
  | .flagZ => .bit s.flagZ
  | .flagC => .bit s.flagC
  | .stall => .bit s.stall
  | .cs => .words s.cs
  | .mem addr => .byte (s.read addr)

/-- The frame loop's iterations and its master-clock-to-CPU ratio (R238; the literals are unaudited). -/
def frameLoopIterations : Nat := 357955
def clockRatio : Nat := 12

/-- Ticks per frame request: one initial tick and one on every 12th iteration, by the two readings R238 leaves open
(D18): numbered from 0 with iteration 0 counting, or numbered from 1. -/
def ticksPerFrame (countsFromZero : Bool) : Nat :=
  if countsFromZero then 1 + (frameLoopIterations + clockRatio - 1) / clockRatio
  else 1 + frameLoopIterations / clockRatio

/-- `n` ticks, all of them, with their reports, oldest first: what a frame request performs with `n` = TICKS_PER_FRAME
(R238). -/
def frameAdvance (p : Config.TickParams) : Nat → State → Host.Outcome (State × List TickOutcome) Fault Refusal
  | 0, s => .next (s, [])
  | n + 1, s =>
    match tickIn p s with
    | .next r =>
      match frameAdvance p n r.1 with
      | .next q => .next (q.1, r.2 :: q.2)
      | .fault r => .fault r
      | .refused r => .refused r
    | .fault r => .fault r
    | .refused r => .refused r

/-- A run (R224) of at most `n` ticks: it ends at the first tick that reports EndOfMemory. -/
def runToEnd (p : Config.TickParams) : Nat → State → Host.Outcome (State × List TickOutcome) Fault Refusal
  | 0, s => .next (s, [])
  | n + 1, s =>
    match tickIn p s with
    | .next r =>
      if r.2 = .endOfMemory then .next (r.1, [r.2])
      else match runToEnd p n r.1 with
        | .next q => .next (q.1, r.2 :: q.2)
        | .fault r => .fault r
        | .refused r => .refused r
    | .fault r => .fault r
    | .refused r => .refused r

end Sys2Proof.Machine
end

