-- ==== Sys2Proof/Machine/Mapper.lean ====
section
/-! DEFINITION. `Load(image)`: the address-space mapper and the state after reset (20_memory.md R56 to R68,
10_state.md R37, 70_reset_and_hazards.md R220). -/

namespace Sys2Proof.Machine

/-- The parsed cartridge image (R56). The mapper reads `prg`, `chr` and `mapperId`; no rule reads the rest. -/
structure CartridgeImage where
  prg : List Byte
  chr : List Byte
  /-- assembled from two 4-bit nibbles, so 0 to 255 -/
  mapperId : Byte
  mirroring : Bool
  battery : Bool
  /-- a trainer is located but not mapped -/
  trainer : Bool
  fourScreen : Bool
  vsSystem : Bool
  playChoice : Bool
  prgRamSize : Nat
  tvSystem : Bool
  deriving DecidableEq, Repr

/-- What the loader guarantees of an image (R56): PRG in 16 KiB units, CHR in 8 KiB units, counts of one header byte. -/
def CartridgeImage.wf (img : CartridgeImage) : Bool :=
  img.prg.length % 0x4000 == 0 && img.prg.length / 0x4000 < 256 &&
  img.chr.length % 0x2000 == 0 && img.chr.length / 0x2000 < 256

/-- The image that places no byte: mapper 0, no PRG, no CHR (vector M3). -/
def CartridgeImage.empty : CartridgeImage :=
  { prg := [], chr := [], mapperId := 0, mirroring := false, battery := false, trainer := false, fourScreen := false,
    vsSystem := false, playChoice := false, prgRamSize := 0, tvSystem := false }

/-- What a window is filled from (R53). -/
inductive Backing where
  | prg
  | chr
  /-- unbacked, zero-filled -/
  | zero
  deriving DecidableEq, Repr

/-- An address range the mapper fills (R12, R53). -/
structure Window where
  base : Nat
  size : Nat
  backing : Backing
  deriving DecidableEq, Repr

/-- Mapper 0: the PRG-RAM window (R59). -/
def prgRamWindow : Window := { base := 0x6000, size := 0x2000, backing := .zero }

/-- Mapper 0: PRG windows 0 and 1 (R59). -/
def prgWindow0 : Window := { base := 0x8000, size := 0x4000, backing := .prg }
def prgWindow1 : Window := { base := 0xC000, size := 0x4000, backing := .prg }

/-- Mapper 0: the CHR window, over the zero page (R59, R54, D11). -/
def chrWindow : Window := { base := 0x0000, size := 0x2000, backing := .chr }

/-- Mapper 5 mode 0: one 32 KiB PRG window (R63). -/
def prgWindow32 : Window := { base := 0x8000, size := 0x8000, backing := .prg }

/-- The windows of mapper 0, in the window order of R59. -/
def mapper0Windows : List Window := [prgRamWindow, prgWindow0, prgWindow1, chrWindow]

/-- The windows of mapper 5, mode 0 (R63). -/
def mapper5Windows : List Window := [prgWindow32]

/-- The PRG length of the mirror condition: exactly 16 KiB (R61). -/
def mirrorLength : Nat := 0x4000

/-- The PRG copy rule (R60): fill the windows in order from the source offset `src`, going on where the last window
stopped, or from offset zero again under the mirror condition (R61, conflict C2). Bytes past the last window are not
placed (R66, D13). -/
def copyPrg (prg : List Byte) (mirror : Bool) : Nat → List Window → Memory
  | _, [] => []
  | src, w :: ws =>
    let bytes := (prg.drop src).take w.size
    Memory.cellsFrom w.base bytes ++ copyPrg prg mirror (if mirror then 0 else src + bytes.length) ws

/-- The CHR copy rule (R62): once, cut at the end of the window. -/
def copyChr (chr : List Byte) : Memory := Memory.cellsFrom chrWindow.base (chr.take chrWindow.size)

/-- The memory mapper 0 builds (R59 to R62); the PRG-RAM window takes no byte of the image. -/
def mapper0Memory (img : CartridgeImage) : Memory :=
  copyChr img.chr ++ copyPrg img.prg (img.prg.length == mirrorLength) 0 (mapper0Windows.filter (fun w => w.backing == .prg))

/-- The memory mapper 5 builds in mode 0 (R63): no CHR, no mirror. -/
def mapper5Memory (img : CartridgeImage) : Memory := copyPrg img.prg false 0 mapper5Windows

/-- The mode-selector byte of mapper 5: the whole PRG byte at the open offset, if the PRG has one (R63, D14). -/
def mapper5Mode (offset : Nat) (img : CartridgeImage) : Option Byte := img.prg[offset]?

/-- Mapper selection and bank placement (R58, R63, R64). -/
def buildMemory (offset : Nat) (img : CartridgeImage) : Except Fault Memory :=
  if img.mapperId = 0 then .ok (mapper0Memory img)
  else if img.mapperId = 5 then
    if mapper5Mode offset img = some 0x00 then .ok (mapper5Memory img) else .error .unsupportedMapperMode
  else .error .unsupportedMapper

/-- The state after mapping (R37): PC from the reset vector of the built memory (R67), the RESET_* parameters, the latch
clear and the call stack empty (D9; log entry 11). -/
def initialState (r : Config.ResetValues) (m : Memory) : State :=
  { a := r.a, x := r.x, y := r.y, sp := r.sp, pc := m.readWord resetVector,
    flagN := r.flagN, flagV := r.flagV, flagB := r.flagB, flagD := r.flagD, flagI := r.flagI, flagZ := r.flagZ,
    flagC := r.flagC, stall := false, cs := [], mem := m }

/-- `Load(image)` (R57, R220): build the memory, read the vector, initialise; a failed load yields no machine (R68). -/
def load (p : Config.LoadParams) (img : CartridgeImage) : Result :=
  match buildMemory p.mapper5ModeOffset img with
  | .ok m => .next (initialState p.reset m)
  | .error e => .fault e

/-- The outer entry point: the loader's length check on the raw buffer, then `Load` (R194, R56). The loader's header
parsing is out of scope (R4), so the header's length is an argument and the image comes parsed (log entry 20). -/
def loadChecked (rawLength headerLength : Nat) (p : Config.LoadParams) (img : CartridgeImage) : Result :=
  if rawLength < headerLength + img.prg.length + img.chr.length then .fault .invalidRom else load p img

end Sys2Proof.Machine
end

