-- ==== Sys2Proof/WellFormed.lean ====
section
/-! DEFINITION. Well-formed instructions. Every operand has the exact width of its field (30_encoding.md R91), so the one
check is on UNSUPPORTED: its byte is neither the padding byte nor one of the twenty opcodes (R94, R98). -/

namespace Sys2Proof

/-- An instruction some bytes in memory stand for, at a choice of OPC_*. -/
def Instr.wfIn (ops : Config.OpcodeMap) : Instr → Bool
  | .bpl _ => true
  | .jsr _ => true
  | .bitAbs _ => true
  | .andImm _ => true
  | .jmpAbs _ => true
  | .sei => true
  | .staZp _ => true
  | .stxZp _ => true
  | .dey => true
  | .staAbs _ => true
  | .txs => true
  | .ldyImm _ => true
  | .ldxImm _ => true
  | .ldaImm _ => true
  | .ldaAbs _ => true
  | .ldaAbsX _ => true
  | .ldaIndY => true
  | .cld => true
  | .nop => true
  | .beq _ => true
  | .pad => true
  | .unsupported op => op != 0x00 && allMnemonics.all (fun m => opcodeByteIn ops m != op)

/-- Well-formed at the defaults. -/
def Instr.wf (i : Instr) : Bool := i.wfIn defaultOpcodes

end Sys2Proof
end

