-- ==== Sys2Proof/Safety.lean ====
section
/-! DEFINITION. The terms claims are stated in: which states run, which have ended, the invariant of memory, what each
instruction may write and what it reads (10_state.md R22 to R36), and the spec's own padding loop (R123). -/

namespace Sys2Proof.Machine

/-- A tick from here reaches its padding skip: neither step 1 nor step 2 applies (R120). -/
abbrev State.Running (s : State) : Prop := s.pc ≠ endOfMemory ∧ s.stall = false

/-- A tick at this choice of OPC_* fetches this instruction's opcode byte from here, with no padding before it. -/
abbrev State.ReadyIn (ops : Config.OpcodeMap) (s : State) (m : Mnemonic) : Prop :=
  s.Running ∧ s.read s.pc = opcodeByteIn ops m

/-- A tick at the defaults fetches this instruction's opcode byte from here, with no padding before it. -/
abbrev State.Ready (s : State) (m : Mnemonic) : Prop := s.ReadyIn defaultOpcodes m

/-- One more entry keeps the call stack within this capacity (CALLSTACK_DEPTH, D7); an unbounded one always has room. -/
abbrev State.HasRoom (depth : Option Nat) (s : State) : Prop := ∀ n ∈ depth, s.cs.length < n

/-- The run has ended (R224): the next tick reports EndOfMemory and changes nothing. -/
abbrev State.Ended (s : State) : Prop := s.pc = endOfMemory

/-- The invariant every step keeps: memory has its canonical form. -/
abbrev State.Inv (s : State) : Prop := s.mem.wf

/-- The loop of R123 as the spec writes it, run for at most `n` turns: while PC is not 0xFFFF and the byte there is zero,
PC goes up by one. -/
def paddingLoop : Nat → State → State
  | 0, s => s
  | n + 1, s => if s.pc ≠ endOfMemory ∧ s.read s.pc = 0x00 then paddingLoop n (s.advance 1) else s

/-- The state elements an instruction may write (the writers of R22 to R36), PC among them where its rule moves PC. -/
def writesOf : Instr → List Element
  | .bpl _ => [.pc]
  | .jsr _ => [.cs, .pc]
  | .bitAbs _ => [.flagN, .flagV, .flagZ, .pc]
  | .andImm _ => [.a, .flagN, .flagZ, .pc]
  | .jmpAbs _ => [.pc]
  | .sei => [.flagI]
  | .staZp d8 => [.mem (zeroPageAddress d8), .pc]
  | .stxZp d8 => [.mem (zeroPageAddress d8), .pc]
  | .dey => [.y, .flagN, .flagZ]
  | .staAbs d16 => [.mem (absoluteAddress d16), .pc]
  | .txs => [.cs]
  | .ldyImm _ => [.y, .flagN, .flagZ, .pc]
  | .ldxImm _ => [.x, .flagN, .flagZ, .pc]
  | .ldaImm _ => [.a, .flagN, .flagZ, .pc]
  | .ldaAbs _ => [.a, .flagN, .flagZ, .pc]
  | .ldaAbsX _ => [.a, .flagN, .flagZ, .pc]
  | .ldaIndY => []
  | .cld => [.flagD]
  | .nop => [.stall]
  | .beq _ => [.pc]
  | .pad => [.pc]
  | .unsupported _ => []

/-- The state elements an instruction's rule reads (the readers of R22 to R36). PAD reads the bytes from PC on, which its
own statements name. -/
def readsOf : Instr → List Element
  | .bpl _ => [.flagN, .pc]
  | .jsr _ => [.pc]
  | .bitAbs d16 => [.a, .mem (absoluteAddress d16), .pc]
  | .andImm _ => [.a, .pc]
  | .jmpAbs _ => []
  | .sei => []
  | .staZp _ => [.a, .pc]
  | .stxZp _ => [.x, .pc]
  | .dey => [.y]
  | .staAbs _ => [.a, .pc]
  | .txs => [.x]
  | .ldyImm _ => [.pc]
  | .ldxImm _ => [.pc]
  | .ldaImm _ => [.pc]
  | .ldaAbs d16 => [.mem (absoluteAddress d16), .pc]
  | .ldaAbsX d16 => [.x, .mem (absoluteAddress d16), .pc]
  | .ldaIndY => []
  | .cld => []
  | .nop => []
  | .beq _ => [.flagZ, .pc]
  | .pad => [.pc]
  | .unsupported _ => []

/-- The entry an instruction pushes on the call stack, if it pushes (R33): only JSR and TXS do. -/
def pushOf (s : State) : Instr → Option Address
  | .bpl _ => none
  | .jsr _ => some (s.pc + 2)
  | .bitAbs _ => none
  | .andImm _ => none
  | .jmpAbs _ => none
  | .sei => none
  | .staZp _ => none
  | .stxZp _ => none
  | .dey => none
  | .staAbs _ => none
  | .txs => some (s.x.setWidth 16)
  | .ldyImm _ => none
  | .ldxImm _ => none
  | .ldaImm _ => none
  | .ldaAbs _ => none
  | .ldaAbsX _ => none
  | .ldaIndY => none
  | .cld => none
  | .nop => none
  | .beq _ => none
  | .pad => none
  | .unsupported _ => none

/-- The report of a tick that ran JSR or TXS, the two instructions that push (R33, R236). -/
def reportsPush (ops : Config.OpcodeMap) : TickOutcome → Bool
  | .executed op _ _ => op == opcodeByteIn ops .jsr || op == opcodeByteIn ops .txs
  | .endOfMemory => false
  | .stalled => false
  | .skippedToEnd _ => false
  | .unsupported _ _ _ => false

/-- Two states agree on everything an instruction can read: they may differ in SP, V, B, D, I, C and the call stack,
which nothing reads (R25, R30, R34). -/
abbrev State.SameReadable (s t : State) : Prop :=
  s.a = t.a ∧ s.x = t.x ∧ s.y = t.y ∧ s.pc = t.pc ∧ s.flagN = t.flagN ∧ s.flagZ = t.flagZ ∧ s.stall = t.stall ∧
  s.mem = t.mem

end Sys2Proof.Machine
end

