-- ==== Sys2Proof/Certificates/Slice0/Obligations.lean ====
section
/-! DEFINITION. The statements for the provers, from the numbered rules of spec/. Each says its own arithmetic in plain
numbers where the model has a function for it, so that a wrong model makes it false. A clause that rests on one of the
spec's own decisions D<n>, or on a choice of the model, names it and the log entry. -/

open Sys2Proof Sys2Proof.Machine

/-! Encoding and decoding -/

/-- R94, at any opcode bytes that R96 allows: decode is total on the opcode byte: zero is padding, an opcode byte is its
instruction, all else is unsupported. -/
def Obligations.OpcodeByteSelectsTheArm : Prop :=
  ∀ (ops : Config.OpcodeMap) (b : Byte), opcodesWf ops = true →
    (b = 0x00 → classifyIn ops b = .padding) ∧
    (∀ m, b = opcodeByteIn ops m → classifyIn ops b = .instr m) ∧
    (b ≠ 0x00 → (∀ m, b ≠ opcodeByteIn ops m) → classifyIn ops b = .unsupported b)

/-- R96: the check on a choice of the parameters OPC_* is that the twenty bytes are pairwise distinct and none is zero. The
defaults meet it; their values are PRESUMED (log entry 1). -/
def Obligations.OpcodeBytesAreDistinct : Prop :=
  (∀ ops : Config.OpcodeMap, opcodesWf ops = true ↔
    (∀ m n, opcodeByteIn ops m = opcodeByteIn ops n → m = n) ∧ ∀ m, opcodeByteIn ops m ≠ 0x00) ∧
  (∀ m n, opcodeByte m = opcodeByte n → m = n) ∧ ∀ m, opcodeByte m ≠ 0x00

/-- R93, at any opcode bytes: the opcode byte alone tells the length, by its format; padding and unsupported bytes account
for one byte. -/
def Obligations.OpcodeByteTellsTheLength : Prop :=
  ∀ (ops : Config.OpcodeMap) (b0 b1 b2 : Byte), instrLength (decodeWordIn ops b0 b1 b2) =
    match classifyIn ops b0 with
    | .padding => 1
    | .instr m => formatLength (formatOf m)
    | .unsupported _ => 1

/-- Words written out from the formats of R91 and the default opcodes of R95 (PRESUMED, log entry 1) decode to the
instruction they stand for; the placeholder's operand byte is left over (D5, log entry 8). With OPC_LDA_IMM at 0x01 it is
0x01 that decodes to LDA, and 0xA9 is unsupported. -/
def Obligations.SpecWordsDecode : Prop :=
  decode [0x10, 0x05] = .ok (.bpl 0x05, []) ∧
  decode [0x20, 0x34, 0x12] = .ok (.jsr 0x1234, []) ∧
  decode [0x29, 0x0F, 0x8D] = .ok (.andImm 0x0F, [0x8D]) ∧
  decode [0x8D, 0x01, 0x90] = .ok (.staAbs 0x9001, []) ∧
  decode [0xBD, 0xFE, 0x02] = .ok (.ldaAbsX 0x02FE, []) ∧
  decode [0xB1, 0x10] = .ok (.ldaIndY, [0x10]) ∧
  decode [0x00, 0x78] = .ok (.pad, [0x78]) ∧
  decode [0x60, 0x78] = .ok (.unsupported 0x60, [0x78]) ∧
  decode [0x4C, 0x00] = .error (.operandMissing 0x4C) ∧
  decodeIn { defaultOpcodes with ldaImm := 0x01 } [0x01, 0x42] = .ok (.ldaImm 0x42, []) ∧
  decodeIn { defaultOpcodes with ldaImm := 0x01 } [0xA9, 0x42] = .ok (.unsupported 0xA9, [0x42]) ∧
  decodeTableWord 24 0x12344C = some (.jmpAbs 0x1234)

/-- At any opcode bytes that R96 allows, decoding what the encoder writes gives the instruction back, every operand at every
value, and leaves the bytes after it (R90, R91); so it does at the defaults. -/
def Obligations.DecodeOfEncodeIsTheInstruction : Prop :=
  (∀ (ops : Config.OpcodeMap) (i : Instr) (rest : List Byte), opcodesWf ops = true → i.wfIn ops = true →
    decodeIn ops (encodeIn ops i ++ rest) = .ok (i, rest)) ∧
  ∀ (i : Instr) (rest : List Byte), i.wf = true → decode (encode i ++ rest) = .ok (i, rest)

/-- At any opcode bytes, what the decoder accepts is well formed and encodes to exactly the bytes consumed; it rejects a list
only when it is empty or ends inside the operand (R90 to R94). The decoder at the defaults is one of these. -/
def Obligations.EncodeOfDecodeIsTheBytes : Prop :=
  (∀ (ops : Config.OpcodeMap) (bytes : List Byte) (i : Instr) (rest : List Byte), decodeIn ops bytes = .ok (i, rest) →
    i.wfIn ops = true ∧ encodeIn ops i ++ rest = bytes) ∧
  (∀ (ops : Config.OpcodeMap) (bytes : List Byte) (e : DecodeReject), decodeIn ops bytes = .error e →
    bytes = [] ∨ ∃ b0 more, bytes = b0 :: more ∧ bytes.length < opcodeLengthIn ops b0) ∧
  (∀ bytes : List Byte, decode bytes = decodeIn defaultOpcodes bytes) ∧
  ∀ i : Instr, i.wf = i.wfIn defaultOpcodes ∧ encode i = encodeIn defaultOpcodes i

/-! The tick, at any choice of its parameters (R21): OPC_* and CALLSTACK_DEPTH. `tick` and `step` are it at the defaults. -/

/-- A tick whose bytes at PC decode to a well-formed instruction other than padding runs it from the state with PC past
the opcode byte, an increment that never wraps, and reports the byte, its address and no skip (R124, R125, R126; the
report's form is D16). First at the defaults, then at any parameters. -/
def Obligations.StepRunsTheDecodedInstruction : Prop :=
  (∀ (s : State) (i : Instr) (rest : List Byte), s.Running →
    decode [s.read s.pc, s.read (s.pc + 1), s.read (s.pc + 2)] = .ok (i, rest) → i.wf = true → i ≠ .pad →
    step s = exec i { s with pc := s.pc + 1 } ∧
    (s.pc + 1).toNat = s.pc.toNat + 1 ∧
    ∀ t, exec i { s with pc := s.pc + 1 } = .next t →
      tick s = .next (t, if i = .unsupported (s.read s.pc) then .unsupported (s.read s.pc) s.pc 0
                         else .executed (s.read s.pc) s.pc 0)) ∧
  ∀ (p : Config.TickParams) (s : State) (i : Instr) (rest : List Byte), s.Running →
    decodeIn p.opcodes [s.read s.pc, s.read (s.pc + 1), s.read (s.pc + 2)] = .ok (i, rest) → i ≠ .pad →
    stepIn p s = execIn p i { s with pc := s.pc + 1 } ∧
    ∀ t, execIn p i { s with pc := s.pc + 1 } = .next t →
      tickIn p s = .next (t, if i = .unsupported (s.read s.pc) then .unsupported (s.read s.pc) s.pc 0
                             else .executed (s.read s.pc) s.pc 0)

/-- Step 3 runs PAD first, in the same tick as the fetch: if it comes to rest at 0xFFFF the tick ends there (D3, log entry
6), else the tick goes on exactly as a tick from the state after the skip (R123). -/
def Obligations.TickSkipsPaddingThenFetches : Prop :=
  ∀ (p : Config.TickParams) (s t : State), s.Running → exec .pad s = .next t →
    (t.pc = 0xFFFF → tickIn p s = .next (t, .skippedToEnd (t.pc.toNat - s.pc.toNat)) ∧
      tick s = .next (t, .skippedToEnd (t.pc.toNat - s.pc.toNat))) ∧
    (t.pc ≠ 0xFFFF → stepIn p s = stepIn p t ∧ step s = step t ∧ exec .pad t = .next t)

/-- The machine's padding skip is the while loop of R123 as the spec writes it, run to its end in at most 0xFFFF turns
(R128; the bound at 0xFFFF is D3, log entry 6). -/
def Obligations.PaddingSkipIsTheSpecLoop : Prop :=
  ∀ s : State, exec .pad s = .next (paddingLoop 0xFFFF s) ∧
    ¬ ((paddingLoop 0xFFFF s).pc ≠ 0xFFFF ∧ (paddingLoop 0xFFFF s).read (paddingLoop 0xFFFF s).pc = 0x00)

/-- PAD completes in every state: PC moves forward over zero bytes only, to a non-zero byte or to 0xFFFF, and nothing else
changes (R97, R123; the bound is D3, log entry 6). -/
def Obligations.PadMovesPcOverZeroBytes : Prop :=
  ∀ s : State, ∃ t : State, exec .pad s = .next t ∧ t = { s with pc := t.pc } ∧
    s.pc.toNat ≤ t.pc.toNat ∧
    (∀ a : Address, s.pc.toNat ≤ a.toNat → a.toNat < t.pc.toNat → s.read a = 0x00) ∧
    (t.pc = 0xFFFF ∨ s.read t.pc ≠ 0x00)

/-- R121: a tick at PC = 0xFFFF changes nothing, not even a set stall latch, and reports EndOfMemory. -/
def Obligations.TickAtTopOfMemoryDoesNothing : Prop :=
  ∀ (p : Config.TickParams) (s : State), s.pc = 0xFFFF →
    tickIn p s = .next (s, .endOfMemory) ∧ tick s = .next (s, .endOfMemory) ∧ step s = .next s

/-- R122: a tick with the stall latch set clears it, changes nothing else and fetches nothing. -/
def Obligations.StalledTickOnlyClearsTheLatch : Prop :=
  ∀ (p : Config.TickParams) (s : State), s.pc ≠ 0xFFFF → s.stall = true →
    tickIn p s = .next ({ s with stall := false }, .stalled) ∧
    tick s = .next ({ s with stall := false }, .stalled) ∧ step s = .next { s with stall := false }

/-- R198: every tick reports exactly one outcome, and which one is settled in the order EndOfMemory, Stalled, SkippedToEnd,
then Unsupported or Executed by the first byte that is not zero. -/
def Obligations.TickOutcomeFollowsTheStepOrder : Prop :=
  ∀ (p : Config.TickParams) (s : State), ∃ (t : State) (o : TickOutcome), tickIn p s = .next (t, o) ∧
    (s.pc = 0xFFFF → o = .endOfMemory ∧ t = s) ∧
    (s.pc ≠ 0xFFFF → s.stall = true → o = .stalled ∧ t = { s with stall := false }) ∧
    (s.pc ≠ 0xFFFF → s.stall = false →
      (∀ a : Address, s.pc.toNat ≤ a.toNat → a.toNat < 0xFFFF → s.read a = 0x00) →
      o = .skippedToEnd (0xFFFF - s.pc.toNat) ∧ t = { s with pc := 0xFFFF }) ∧
    (s.pc ≠ 0xFFFF → s.stall = false →
      ∀ q : Address, s.pc.toNat ≤ q.toNat → q.toNat < 0xFFFF → s.read q ≠ 0x00 →
      (∀ a : Address, s.pc.toNat ≤ a.toNat → a.toNat < q.toNat → s.read a = 0x00) →
      ((∀ m, s.read q ≠ opcodeByteIn p.opcodes m) → o = .unsupported (s.read q) q (q.toNat - s.pc.toNat)) ∧
      (∀ m, s.read q = opcodeByteIn p.opcodes m → o = .executed (s.read q) q (q.toNat - s.pc.toNat)))

/-- No constructor, whatever its operands and the state, and no tick stops the machine. Of the implemented instructions R193
says so; that PAD and UNSUPPORTED and every tick and step, one at PC = 0xFFFF among them, answer a next state rests on R190
and R128 and is DEDUCED (log entry 15); that JSR and TXS always do rests on a push that always succeeds (R34, the unbounded
stack of D7, log entry 10; at a finite CALLSTACK_DEPTH too, DEDUCED, log entry 23). -/
def Obligations.NothingStopsTheMachine : Prop :=
  (∀ (i : Instr) (s : State), ∃ t, exec i s = .next t) ∧
  (∀ s : State, ∃ (t : State) (o : TickOutcome), tick s = .next (t, o) ∧ step s = .next t) ∧
  (∀ (p : Config.TickParams) (i : Instr) (s : State), ∃ t, execIn p i s = .next t) ∧
  ∀ (p : Config.TickParams) (s : State), ∃ (t : State) (o : TickOutcome), tickIn p s = .next (t, o) ∧ stepIn p s = .next t

/-- R126: a fetched byte that is neither zero nor one of the opcodes accounts for one byte, is reported with its address
and the padding skipped before it, and has no other effect. -/
def Obligations.UnsupportedByteIsReportedAndSteppedOver : Prop :=
  (∀ (op : Byte) (s : State), exec (.unsupported op) s = .next s) ∧
  ∀ (p : Config.TickParams) (s t : State), s.Running → exec .pad s = .next t → t.pc ≠ 0xFFFF →
    (∀ m, t.read t.pc ≠ opcodeByteIn p.opcodes m) →
    tickIn p s = .next ({ t with pc := t.pc + 1 }, .unsupported (t.read t.pc) t.pc (t.pc.toNat - s.pc.toNat))

/-- PC = 0xFFFF is absorbing (R129): however many steps follow, the state is the same, and every tick reports
EndOfMemory. -/
def Obligations.TopOfMemoryIsAbsorbing : Prop :=
  ∀ (p : Config.TickParams) (n : Nat) (s : State), s.pc = 0xFFFF →
    Sys2Proof.core.run n s = .next s ∧ frameAdvance p n s = .next (s, List.replicate n .endOfMemory)

/-- A run ends at the first tick that reports EndOfMemory (R224, D22): that report is its last, no earlier one is it, PC is
0xFFFF there, and the state no longer changes. -/
def Obligations.RunEndsAtTheFirstEndOfMemory : Prop :=
  ∀ (p : Config.TickParams) (n : Nat) (s t : State) (os : List TickOutcome), runToEnd p n s = .next (t, os) →
    TickOutcome.endOfMemory ∉ os.dropLast ∧
    (TickOutcome.endOfMemory ∈ os → t.pc = 0xFFFF ∧ stepIn p t = .next t) ∧
    (TickOutcome.endOfMemory ∉ os → os.length = n)

/-- What is stored by `withFetchWord` is what the next step runs: the decoder's reading of the table word, from the state
with PC past the opcode byte; a padding word leaves a zero byte at PC (log entry 4). -/
def Obligations.StoredTableWordIsWhatStepRuns : Prop :=
  ∀ (s : State) (nbits w : Nat) (i : Instr), decodeTableWord nbits w = some i →
    (s.withFetchWord nbits w).Running ∧
    (i ≠ .pad → step (s.withFetchWord nbits w) =
      exec i { s.withFetchWord nbits w with pc := (s.withFetchWord nbits w).pc + 1 }) ∧
    (i = .pad → (s.withFetchWord nbits w).read (s.withFetchWord nbits w).pc = 0x00)

/-! Control transfer -/

/-- BPL (R140): with N clear PC moves on by the operand byte read unsigned, the operand itself not stepped over; with N set
by one. Nothing else changes. The wrap modulo 2^16 is D2 (log entry 5). -/
def Obligations.BplAddsItsOperandUnsigned : Prop :=
  ∀ (d8 : Byte) (s : State), exec (.bpl d8) s =
    .next { s with pc := BitVec.ofNat 16 (s.pc.toNat + if s.flagN = false then d8.toNat else 1) }

/-- BEQ (R143): with Z set PC moves by the integer d8 - 127 and then by one, with Z clear by one. Nothing else changes. The
integer reading is D6 (log entry 9), the wrap D2 (log entry 5). -/
def Obligations.BeqAddsItsOperandLessTheBias : Prop :=
  ∀ (d8 : Byte) (s : State), ∃ t : State, exec (.beq d8) s = .next t ∧ t = { s with pc := t.pc } ∧
    (s.flagZ = true → ((t.pc.toNat : Int) = ((s.pc.toNat : Int) + (d8.toNat : Int) - 126) % 65536)) ∧
    (s.flagZ = false → t.pc.toNat = (s.pc.toNat + 1) % 65536)

/-- JSR (R141): the address after the operand is appended to the call stack and PC is the operand; no memory, no SP, no
flag. The wrap is D2 (log entry 5), the 16-bit entry D7 (log entry 10). So at any CALLSTACK_DEPTH and any length of the call
stack: the push always succeeds and no entry is lost (R34, R236; past a finite capacity DEDUCED, log entry 23). -/
def Obligations.JsrPushesThenJumps : Prop :=
  ∀ (d16 : Address) (s : State),
    exec (.jsr d16) s = .next { s with cs := s.cs ++ [BitVec.ofNat 16 (s.pc.toNat + 2)], pc := d16 } ∧
    ∀ p : Config.TickParams, execIn p (.jsr d16) s =
      .next { s with cs := s.cs ++ [BitVec.ofNat 16 (s.pc.toNat + 2)], pc := d16 }

/-- JMP (R142): encoded as its opcode and the target low byte first, it sets PC to the target and changes nothing else;
a jump to its own opcode repeats for ever, and after a jump to 0xFFFF the next tick reports EndOfMemory. The opcode is the
parameter OPC_JMP_ABS, any byte that R96 allows; its default value is log entry 1 and not stated here. -/
def Obligations.JmpSetsPcToItsOperand : Prop :=
  formatOf .jmpAbs = .abs ∧ formatLength .abs = 3 ∧
  (∀ ops : Config.OpcodeMap, opcodesWf ops = true →
    ∀ lo hi : Byte, decodeWordIn ops (opcodeByteIn ops .jmpAbs) lo hi = .jmpAbs (hi ++ lo)) ∧
  (∀ (d16 : Address) (s : State), exec (.jmpAbs d16) s = .next { s with pc := d16 }) ∧
  (∀ s : State, s.Ready .jmpAbs → s.read (s.pc + 2) ++ s.read (s.pc + 1) = s.pc → step s = .next s) ∧
  (∀ (p : Config.TickParams) (s : State), opcodesWf p.opcodes = true → s.ReadyIn p.opcodes .jmpAbs →
    s.read (s.pc + 2) ++ s.read (s.pc + 1) = s.pc → stepIn p s = .next s) ∧
  ∀ s t : State, exec (.jmpAbs 0xFFFF) s = .next t → tick t = .next (t, .endOfMemory)

/-- Where the four control transfers go from the address of their opcode byte, in one tick (R140 to R143; wraps by D2,
integer BEQ by D6, pushed entry by D7; log entries 5, 9, 10): BPL to opaddr + 1 + d8 or opaddr + 2, BEQ to opaddr + d8 - 125
or opaddr + 2, JMP and JSR to the little-endian operand, JSR pushing opaddr + 3. So at any parameters,
JSR at any length of the call stack (R34, R236; past a finite CALLSTACK_DEPTH DEDUCED, log entry 23). -/
def Obligations.ControlTransfersFromTheOpcodeAddress : Prop :=
  ∀ (p : Config.TickParams) (s : State), opcodesWf p.opcodes = true →
    (s.ReadyIn p.opcodes .bpl → stepIn p s = .next { s with
      pc := if s.flagN then s.pc + 2 else s.pc + 1 + (s.read (s.pc + 1)).setWidth 16 }) ∧
    (s.ReadyIn p.opcodes .beq → stepIn p s = .next { s with
      pc := if s.flagZ then s.pc + (s.read (s.pc + 1)).setWidth 16 - 125 else s.pc + 2 }) ∧
    (s.ReadyIn p.opcodes .jmpAbs → stepIn p s = .next { s with pc := s.read (s.pc + 2) ++ s.read (s.pc + 1) }) ∧
    (s.ReadyIn p.opcodes .jsr → stepIn p s = .next { s with
      pc := s.read (s.pc + 2) ++ s.read (s.pc + 1), cs := s.cs ++ [s.pc + 3] }) ∧
    (s.Ready .jsr → step s = .next { s with
      pc := s.read (s.pc + 2) ++ s.read (s.pc + 1), cs := s.cs ++ [s.pc + 3] })

/-! Logic, flags, registers -/

/-- BIT (R150): N and V are bits 7 and 6 of the memory byte, Z is whether A and the byte share no bit; A and memory are not
written. The step over the operand is D4 (log entry 7), its wrap D2 (log entry 5). -/
def Obligations.BitTestCopiesMemoryBits : Prop :=
  ∀ (d16 : Address) (s : State), exec (.bitAbs d16) s = .next { s with
    flagN := decide (128 ≤ (s.read d16).toNat)
    flagV := decide (64 ≤ (s.read d16).toNat % 128)
    flagZ := decide (s.a &&& s.read d16 = 0x00)
    pc := s.pc + 2 }

/-- AND (R151): A becomes the bitwise and, bit by bit; Z and N are recomputed from the new A. The step over the operand is
D4 (log entry 7). -/
def Obligations.AndMasksA : Prop :=
  ∀ (d8 : Byte) (s : State), ∃ t : State, exec (.andImm d8) s = .next t ∧
    (∀ k, t.a.getLsbD k = (s.a.getLsbD k && d8.getLsbD k)) ∧
    t = { s with a := t.a, flagZ := decide (t.a = 0x00), flagN := decide (128 ≤ t.a.toNat), pc := s.pc + 1 }

/-- SEI (R152): one byte, its opcode; I becomes 1, PC stays where the fetch left it, nothing else changes; no
instruction clears I, and whatever I holds, every instruction does the same to all else. The opcode is the parameter
OPC_SEI. -/
def Obligations.SeiSetsInterruptDisable : Prop :=
  formatOf .sei = .imp ∧ formatLength .imp = 1 ∧
  (∀ ops : Config.OpcodeMap, opcodesWf ops = true →
    ∀ b1 b2 : Byte, decodeWordIn ops (opcodeByteIn ops .sei) b1 b2 = .sei) ∧
  (∀ s : State, exec .sei s = .next { s with flagI := true }) ∧
  (∀ (i : Instr) (s t : State), exec i s = .next t → s.flagI = true → t.flagI = true) ∧
  ∀ (i : Instr) (s t : State) (f : Bool), exec i s = .next t →
    ∃ f', exec i { s with flagI := f } = .next { t with flagI := f' }

/-- DEY (R153): one byte, its opcode; Y goes down by one modulo 256, Z and N are recomputed from the new Y, the borrow is
dropped, PC stays where the fetch left it. The opcode is the parameter OPC_DEY. -/
def Obligations.DeyDecrementsY : Prop :=
  formatOf .dey = .imp ∧ formatLength .imp = 1 ∧
  (∀ ops : Config.OpcodeMap, opcodesWf ops = true →
    ∀ b1 b2 : Byte, decodeWordIn ops (opcodeByteIn ops .dey) b1 b2 = .dey) ∧
  ∀ s : State, ∃ t : State, exec .dey s = .next t ∧ t.y.toNat = (s.y.toNat + 255) % 256 ∧
    t = { s with y := t.y, flagZ := decide (t.y = 0x00), flagN := decide (128 ≤ t.y.toNat) }

/-- TXS (R154): X is appended to the call stack as a 16-bit entry (D7, log entry 10); SP, X, memory and flags are
unchanged. So at any CALLSTACK_DEPTH and any length of the call stack: the push always succeeds and no entry is lost (R34,
R236; past a finite capacity DEDUCED, log entry 23). -/
def Obligations.TxsPushesXAndLeavesSp : Prop :=
  ∀ s : State, ∃ v : Address, exec .txs s = .next { s with cs := s.cs ++ [v] } ∧ v.toNat = s.x.toNat ∧
    ∀ p : Config.TickParams, execIn p .txs s = .next { s with cs := s.cs ++ [v] }

/-- CLD (R155): one byte, its opcode; D becomes 0, nothing else changes; no instruction sets D, and whatever D
holds, every instruction does the same to all else. The opcode is the parameter OPC_CLD. -/
def Obligations.CldClearsDecimal : Prop :=
  formatOf .cld = .imp ∧ formatLength .imp = 1 ∧
  (∀ ops : Config.OpcodeMap, opcodesWf ops = true →
    ∀ b1 b2 : Byte, decodeWordIn ops (opcodeByteIn ops .cld) b1 b2 = .cld) ∧
  (∀ s : State, exec .cld s = .next { s with flagD := false }) ∧
  (∀ (i : Instr) (s t : State), exec i s = .next t → t.flagD = true → s.flagD = true) ∧
  ∀ (i : Instr) (s t : State) (f : Bool), exec i s = .next t →
    ∃ f', exec i { s with flagD := f } = .next { t with flagD := f' }

/-- NOP (R156): one byte, its opcode; it sets the stall latch and nothing else. The tick after it clears the latch and
leaves PC, so the instruction takes two ticks; a NOP that leaves PC at 0xFFFF keeps the latch set for ever. The latch is 0
whenever an instruction runs. The opcode is the parameter OPC_NOP. -/
def Obligations.NopStallsOneTick : Prop :=
  formatOf .nop = .imp ∧ formatLength .imp = 1 ∧
  (∀ ops : Config.OpcodeMap, opcodesWf ops = true →
    ∀ b1 b2 : Byte, decodeWordIn ops (opcodeByteIn ops .nop) b1 b2 = .nop) ∧
  (∀ s : State, exec .nop s = .next { s with stall := true }) ∧
  (∀ (p : Config.TickParams) (s t : State) (op : Byte) (a : Address) (n : Nat),
    tickIn p s = .next (t, .executed op a n) → s.stall = false) ∧
  (∀ (p : Config.TickParams) (s : State), opcodesWf p.opcodes = true → s.ReadyIn p.opcodes .nop →
    stepIn p s = .next { s with pc := s.pc + 1, stall := true }) ∧
  ∀ s : State, s.Ready .nop →
    step s = .next { s with pc := s.pc + 1, stall := true } ∧
    (s.pc ≠ 0xFFFE →
      tick { s with pc := s.pc + 1, stall := true } = .next ({ s with pc := s.pc + 1 }, .stalled)) ∧
    (s.pc = 0xFFFE → ∀ n, Sys2Proof.core.run n { s with pc := s.pc + 1, stall := true } =
      .next { s with pc := s.pc + 1, stall := true })

/-- R29: after an instruction that recomputes Z and N from a result byte (AND, DEY, the immediate loads, the two memory
loads) Z says whether the register it wrote is zero and N is that register's bit 7. -/
def Obligations.ZeroAndNegativeFollowTheResult : Prop :=
  (∀ (i : Instr) (s t : State), exec i s = .next t →
    ((∃ d, i = .andImm d) ∨ (∃ d, i = .ldaImm d) ∨ (∃ d, i = .ldaAbs d) ∨ (∃ d, i = .ldaAbsX d)) →
    (t.flagZ = true ↔ t.a.toNat = 0) ∧ (t.flagN = true ↔ 128 ≤ t.a.toNat)) ∧
  (∀ (d8 : Byte) (s t : State), exec (.ldxImm d8) s = .next t →
    (t.flagZ = true ↔ t.x.toNat = 0) ∧ (t.flagN = true ↔ 128 ≤ t.x.toNat)) ∧
  ∀ (i : Instr) (s t : State), exec i s = .next t → (i = .dey ∨ ∃ d, i = .ldyImm d) →
    (t.flagZ = true ↔ t.y.toNat = 0) ∧ (t.flagN = true ↔ 128 ≤ t.y.toNat)

/-! Loads and stores -/

/-- STA zp and STX zp (R170, R171): the byte of A or X lands at the operand read as an address below 256; every other byte
and every other state element but PC is as before. The step over the operand is D4 (log entry 7). -/
def Obligations.ZeroPageStoresWriteOneByte : Prop :=
  ∀ (d8 : Byte) (s : State),
    (zeroPageAddress d8).toNat = d8.toNat ∧
    (∃ t : State, exec (.staZp d8) s = .next t ∧ t = { s with mem := t.mem, pc := s.pc + 1 } ∧
      t.read (zeroPageAddress d8) = s.a ∧ ∀ a, a ≠ zeroPageAddress d8 → t.read a = s.read a) ∧
    (∃ t : State, exec (.stxZp d8) s = .next t ∧ t = { s with mem := t.mem, pc := s.pc + 1 } ∧
      t.read (zeroPageAddress d8) = s.x ∧ ∀ a, a ≠ zeroPageAddress d8 → t.read a = s.read a)

/-- STA abs (R172): the byte of A lands at the operand, any of the 65,536 addresses; every other byte and every other state
element but PC is as before. The step over the operand is D4 (log entry 7). -/
def Obligations.AbsoluteStoreWritesOneByte : Prop :=
  ∀ (d16 : Address) (s : State), ∃ t : State, exec (.staAbs d16) s = .next t ∧
    t = { s with mem := t.mem, pc := s.pc + 2 } ∧
    t.read d16 = s.a ∧ ∀ a, a ≠ d16 → t.read a = s.read a

/-- LDY, LDX, LDA immediate (R173 to R175): the register is the operand byte, Z and N are recomputed from it, nothing else
but PC changes. The step over the operand is D4 (log entry 7). -/
def Obligations.ImmediateLoadsWriteTheirRegister : Prop :=
  ∀ (d8 : Byte) (s : State),
    exec (.ldyImm d8) s = .next { s with
      y := d8, flagZ := decide (d8.toNat = 0), flagN := decide (128 ≤ d8.toNat), pc := s.pc + 1 } ∧
    exec (.ldxImm d8) s = .next { s with
      x := d8, flagZ := decide (d8.toNat = 0), flagN := decide (128 ≤ d8.toNat), pc := s.pc + 1 } ∧
    exec (.ldaImm d8) s = .next { s with
      a := d8, flagZ := decide (d8.toNat = 0), flagN := decide (128 ≤ d8.toNat), pc := s.pc + 1 }

/-- LDA abs (R176): A is the byte at the operand address, Z and N are recomputed from it. The step over the operand is D4
(log entry 7). -/
def Obligations.AbsoluteLoadReadsTheOperandAddress : Prop :=
  ∀ (d16 : Address) (s : State), exec (.ldaAbs d16) s = .next { s with
    a := s.read d16
    flagZ := decide ((s.read d16).toNat = 0)
    flagN := decide (128 ≤ (s.read d16).toNat)
    pc := s.pc + 2 }

/-- LDA abs,X (R177): X is added to the byte at the operand address itself, modulo 256; Z and N follow the 8-bit sum, C and V
are not written. The step over the operand is D4 (log entry 7). -/
def Obligations.IndexedLoadAddsXToTheData : Prop :=
  ∀ (d16 : Address) (s : State), ∃ t : State, exec (.ldaAbsX d16) s = .next t ∧
    t.a.toNat = ((s.read d16).toNat + s.x.toNat) % 256 ∧
    t = { s with a := t.a, flagZ := decide (t.a.toNat = 0), flagN := decide (128 ≤ t.a.toNat), pc := s.pc + 2 }

/-- LDA (zp),Y (R178): decoded with no operand and no effect; in a tick only PC moves, by the opcode byte (D5, log entry
8), and the report is Executed. -/
def Obligations.IndirectLoadPlaceholderDoesNothing : Prop :=
  (∀ s : State, exec .ldaIndY s = .next s) ∧
  ∀ (p : Config.TickParams) (s : State), opcodesWf p.opcodes = true → s.ReadyIn p.opcodes .ldaIndY →
    tickIn p s = .next ({ s with pc := s.pc + 1 }, .executed (opcodeByteIn p.opcodes .ldaIndY) s.pc 0)

/-- After a tick that runs any instruction but the branches, JSR and JMP, with no padding before it, PC is the opcode's
address plus the bytes its format consumes (R92, D4, D5; log entries 5, 7, 8). -/
def Obligations.PcAdvancesByBytesConsumed : Prop :=
  ∀ (p : Config.TickParams) (s t : State) (m : Mnemonic), opcodesWf p.opcodes = true → s.ReadyIn p.opcodes m →
    m ≠ .bpl → m ≠ .beq → m ≠ .jsr → m ≠ .jmpAbs → stepIn p s = .next t →
    t.pc.toNat = (s.pc.toNat + formatLength (formatOf m)) % 65536

/-! Frames and readers of every instruction -/

/-- Every state element outside an instruction's writers is unchanged by it, every byte of memory among them (R22 to R36,
R52). -/
def Obligations.InstructionsWriteOnlyTheirElements : Prop :=
  ∀ (i : Instr) (s t : State) (e : Element), exec i s = .next t → e ∉ writesOf i → observe t e = observe s e

/-- What an instruction writes depends on nothing but its readers: in two states that agree on them, every element it
writes, but for the call stack (which it only appends to) and PAD's PC, gets the same value (R22 to R36). -/
def Obligations.InstructionsReadOnlyTheirElements : Prop :=
  ∀ (i : Instr) (s s' t t' : State), i ≠ .pad → (∀ e ∈ readsOf i, observe s e = observe s' e) →
    exec i s = .next t → exec i s' = .next t' →
    (∀ e ∈ writesOf i, e ≠ .cs → observe t e = observe t' e) ∧
    ∃ pushed : List Address, t.cs = s.cs ++ pushed ∧ t'.cs = s'.cs ++ pushed

/-- The call stack only grows, by the one entry JSR or TXS pushes; every other instruction leaves it (R33, R34, D7; log entry
10). Along any number of ticks, at any parameters, it grows by one entry for each JSR or TXS reported executed and keeps every
entry it has (R236; past a finite CALLSTACK_DEPTH DEDUCED, log entry 23); with room for one more entry a step stays within the
capacity. -/
def Obligations.OnlyJsrAndTxsPush : Prop :=
  (∀ (i : Instr) (s t : State), exec i s = .next t → t.cs = s.cs ++ (pushOf s i).toList) ∧
  (∀ (p : Config.TickParams) (n : Nat) (s t : State) (os : List TickOutcome), opcodesWf p.opcodes = true →
    frameAdvance p n s = .next (t, os) →
    s.cs <+: t.cs ∧ t.cs.length = s.cs.length + os.countP (reportsPush p.opcodes)) ∧
  ∀ (p : Config.TickParams) (n : Nat) (s t : State), p.callStackDepth = some n → s.HasRoom (some n) →
    stepIn p s = .next t → t.cs.length ≤ n

/-- The parameters of a tick change which byte stands for which instruction and where the call stack's capacity lies, and
nothing else (R6, R21): at any OPC_* and CALLSTACK_DEPTH an instruction does what `exec` does, and since no instruction tests
the stack's length (R34; log entry 23) two choices with the same opcode bytes give the same ticks, with the same reports.
`exec`, `tick` and `step` are the same at the defaults, opcode bytes of R95 (log entry 1) and an unbounded call stack (D7, log
entry 10). -/
def Obligations.ParametersChangeOnlyOpcodesAndCapacity : Prop :=
  (∀ (p : Config.TickParams) (i : Instr) (s : State), execIn p i s = exec i s) ∧
  (∀ (p q : Config.TickParams) (n : Nat) (s : State), p.opcodes = q.opcodes →
    tickIn p s = tickIn q s ∧ frameAdvance p n s = frameAdvance q n s) ∧
  (defaultTickParams.callStackDepth = none ∧ ∀ m, opcodeByteIn defaultTickParams.opcodes m = opcodeByte m) ∧
  ∀ s : State, tick s = tickIn defaultTickParams s ∧ step s = stepIn defaultTickParams s

/-- R25, R30 and R33, along any number of steps: SP, B and C keep their values, D can only become 0, I can only become 1,
and the call stack keeps every entry it has. -/
def Obligations.RunsKeepUnwrittenState : Prop :=
  ∀ (n : Nat) (s t : State), Sys2Proof.core.run n s = .next t →
    t.sp = s.sp ∧ t.flagB = s.flagB ∧ t.flagC = s.flagC ∧
    (t.flagD = true → s.flagD = true) ∧ (s.flagI = true → t.flagI = true) ∧ s.cs <+: t.cs

/-- SP, V, B, D, I, C and the call stack are read by nothing (R25, R30, R34): two runs of any length from states that differ
only in them agree at the end on every register, N, Z, the latch and memory; a step at any parameters, a call stack at its
capacity or not, keeps them agreeing too. -/
def Obligations.UnreadStateNeverInfluencesARun : Prop :=
  (∀ (n : Nat) (s s' t : State), s.SameReadable s' → Sys2Proof.core.run n s = .next t →
    ∃ t' : State, Sys2Proof.core.run n s' = .next t' ∧ t.SameReadable t') ∧
  ∀ (p : Config.TickParams) (s s' t : State), s.SameReadable s' → stepIn p s = .next t →
    ∃ t' : State, stepIn p s' = .next t' ∧ t.SameReadable t'

/-! Memory -/

/-- Every step, at any parameters, from a state whose memory is canonical gives a state whose memory is canonical, and so
does any number of steps. -/
def Obligations.StepsKeepMemoryCanonical : Prop :=
  (∀ s t : State, s.Inv → step s = .next t → t.Inv) ∧
  (∀ (p : Config.TickParams) (s t : State), s.Inv → stepIn p s = .next t → t.Inv) ∧
  ∀ (n : Nat) (s t : State), s.Inv → Sys2Proof.core.run n s = .next t → t.Inv

/-- The memory of the state after reset is canonical. -/
def Obligations.ResetMemoryIsCanonical : Prop := State.reset.Inv

/-- The memory of every machine a successful load builds is canonical, whatever the image. -/
def Obligations.LoadedMemoryIsCanonical : Prop :=
  ∀ (p : Config.LoadParams) (img : CartridgeImage) (s : State), load p img = .next s → s.Inv

/-- Canonical memories that read the same at every address are the same list. -/
def Obligations.CanonicalMemoriesAreEqualWhenTheyReadEqual : Prop :=
  ∀ m n : Memory, m.wf → n.wf → (∀ a : Address, m.readAt a.toNat = n.readAt a.toNat) → m = n

/-- R72: a byte write sets the location it names and changes no other location and no other state. -/
def Obligations.WriteSetsOneLocation : Prop :=
  ∀ (s : State) (a : Address) (v : Byte),
    (s.write a v).read a = v ∧ (∀ b, b ≠ a → (s.write a v).read b = s.read b) ∧
    s.write a v = { s with mem := (s.write a v).mem }

/-- A two-byte read takes the low byte from the address and the high byte from the next one (R69, R71), the next one after
0xFFFF being 0x0000 (D2, log entry 5). -/
def Obligations.TwoByteReadIsLittleEndian : Prop :=
  ∀ (s : State) (a : Address),
    (s.readWord a).toNat = (s.read a).toNat + 256 * (s.read (BitVec.ofNat 16 ((a.toNat + 1) % 65536))).toNat

/-- A store is seen by the next fetch from the address it wrote (R77): an opcode byte stored there is the instruction the
next tick runs, and a zero byte stored there is padding. -/
def Obligations.StoreIsSeenByTheNextFetch : Prop :=
  ∀ (d16 : Address) (s t : State), exec (.staAbs d16) s = .next t → s.stall = false → d16 ≠ 0xFFFF →
    (∀ m, s.a = opcodeByte m → step { t with pc := d16 } =
      exec (assemble m (t.read (d16 + 1)) (t.read (d16 + 2))) { t with pc := d16 + 1 }) ∧
    (s.a = 0x00 → step { t with pc := d16 } = step { t with pc := d16 + 1 }) ∧
    ∀ p : Config.TickParams, opcodesWf p.opcodes = true → ∀ m, s.a = opcodeByteIn p.opcodes m →
      stepIn p { t with pc := d16 } =
        execIn p (assemble m (t.read (d16 + 1)) (t.read (d16 + 2))) { t with pc := d16 + 1 }

/-! The mapper and the state after reset -/

/-- Mapper 0 loads every image, and its whole address map is the one R53 gives: CHR bytes at 0x0000 to 0x1FFF, zero up to
0x7FFF, PRG from 0x8000 on, twice over when it is exactly 16 KiB (R59 to R62, R65, R66; D10, D11, D13, log entries 12, 13). -/
def Obligations.MapperZeroAddressMap : Prop :=
  ∀ (p : Config.LoadParams) (img : CartridgeImage), img.mapperId = 0 →
    ∃ s : State, load p img = .next s ∧ ∀ a : Address, s.read a =
      if a.toNat < 0x2000 then img.chr.getD a.toNat 0x00
      else if a.toNat < 0x8000 then 0x00
      else if img.prg.length = 16384 then img.prg.getD ((a.toNat - 0x8000) % 16384) 0x00
      else img.prg.getD (a.toNat - 0x8000) 0x00

/-- R61: with a PRG of exactly 16 KiB under mapper 0 both PRG windows hold the same bank after load, and the mirror is a copy:
a later store into window 0 does not change window 1. -/
def Obligations.SixteenKilobytePrgIsMirrored : Prop :=
  ∀ (p : Config.LoadParams) (img : CartridgeImage), img.mapperId = 0 → img.prg.length = 16384 →
    ∃ s : State, load p img = .next s ∧ ∀ i, (h : i < img.prg.length) →
      s.read (BitVec.ofNat 16 (0x8000 + i)) = img.prg[i] ∧
      s.read (BitVec.ofNat 16 (0xC000 + i)) = img.prg[i] ∧
      ∀ v, (s.write (BitVec.ofNat 16 (0x8000 + i)) v).read (BitVec.ofNat 16 (0xC000 + i)) = img.prg[i]

/-- With a PRG of 32 KiB under mapper 0, bytes 0 to 16383 appear from 0x8000 and bytes 16384 to 32767 from 0xC000, byte for
byte (R60, vector S1). -/
def Obligations.ThirtyTwoKilobytePrgIsPlacedWhole : Prop :=
  ∀ (p : Config.LoadParams) (img : CartridgeImage), img.mapperId = 0 → img.prg.length = 32768 →
    ∃ s : State, load p img = .next s ∧ ∀ i, i < 16384 →
      s.read (BitVec.ofNat 16 (0x8000 + i)) = img.prg.getD i 0x00 ∧
      s.read (BitVec.ofNat 16 (0xC000 + i)) = img.prg.getD (16384 + i) 0x00

/-- Mapper 5 (R63): with the byte at the open offset zero, PRG lies from 0x8000 on with no mirror and everything below is
zero; with the byte absent or not zero the load fails with UnsupportedMapperMode (D10, D12, D13, D14; log entries 12, 13,
14). -/
def Obligations.MapperFiveModeZero : Prop :=
  ∀ (p : Config.LoadParams) (img : CartridgeImage), img.mapperId = 5 →
    (img.prg[p.mapper5ModeOffset]? = some 0x00 → ∃ s : State, load p img = .next s ∧ ∀ a : Address, s.read a =
      if a.toNat < 0x8000 then 0x00 else img.prg.getD (a.toNat - 0x8000) 0x00) ∧
    (img.prg[p.mapper5ModeOffset]? ≠ some 0x00 → load p img = .fault .unsupportedMapperMode)

/-- R64: a mapper id outside 0 and 5 fails with UnsupportedMapper, and there is no machine. -/
def Obligations.OtherMappersAreRefused : Prop :=
  ∀ (p : Config.LoadParams) (img : CartridgeImage), img.mapperId ≠ 0 → img.mapperId ≠ 5 →
    load p img = .fault .unsupportedMapper

/-- The loader's check (R194): a raw buffer shorter than header, PRG and CHR together fails with InvalidRom before the mapper
runs; any other goes to the mapper (log entry 20). -/
def Obligations.ShortBufferIsInvalidRom : Prop :=
  ∀ (rawLength headerLength : Nat) (p : Config.LoadParams) (img : CartridgeImage),
    (rawLength < headerLength + img.prg.length + img.chr.length →
      loadChecked rawLength headerLength p img = .fault .invalidRom) ∧
    (headerLength + img.prg.length + img.chr.length ≤ rawLength →
      loadChecked rawLength headerLength p img = load p img)

/-- After a successful load PC is the little-endian value at 0xFFFC of the built memory (R67), every register and flag has
its RESET_* parameter (D8), the latch is clear and the call stack empty (D9, log entry 11). -/
def Obligations.LoadedStateIsAsResetSays : Prop :=
  ∀ (p : Config.LoadParams) (img : CartridgeImage) (s : State), load p img = .next s →
    s.pc.toNat = (s.read 0xFFFC).toNat + 256 * (s.read 0xFFFD).toNat ∧
    s.a = p.reset.a ∧ s.x = p.reset.x ∧ s.y = p.reset.y ∧ s.sp = p.reset.sp ∧
    s.flagN = p.reset.flagN ∧ s.flagV = p.reset.flagV ∧ s.flagB = p.reset.flagB ∧ s.flagD = p.reset.flagD ∧
    s.flagI = p.reset.flagI ∧ s.flagZ = p.reset.flagZ ∧ s.flagC = p.reset.flagC ∧
    s.stall = false ∧ s.cs = []

/-- Which PRG bytes the reset vector comes from (R67): under mapper 0 offsets 0x7FFC and 0x7FFD of a 32 KiB PRG, 0x3FFC and
0x3FFD of a 16 KiB one; under mapper 5 mode 0 offsets 0x7FFC and 0x7FFD of a PRG of 32 KiB or more; 0x0000 when no PRG byte
reaches 0xFFFC (D10, D14, log entries 12, 14). -/
def Obligations.ResetVectorComesFromThePrg : Prop :=
  ∀ (p : Config.LoadParams) (img : CartridgeImage) (s : State), load p img = .next s →
    (img.mapperId = 0 → img.prg.length = 32768 → s.pc = img.prg.getD 0x7FFD 0 ++ img.prg.getD 0x7FFC 0) ∧
    (img.mapperId = 0 → img.prg.length = 16384 → s.pc = img.prg.getD 0x3FFD 0 ++ img.prg.getD 0x3FFC 0) ∧
    (img.mapperId = 5 → 32768 ≤ img.prg.length → s.pc = img.prg.getD 0x7FFD 0 ++ img.prg.getD 0x7FFC 0) ∧
    (img.mapperId = 0 → img.prg.length = 0 → s.pc = 0x0000) ∧
    (img.mapperId = 5 → img.prg.length ≤ 0x7FFC → s.pc = 0x0000)

/-- `State.reset` is the machine a load of the image that places no byte builds, with the zero values of log entries 2 and 3:
PC 0x0000, the latch clear, the call stack empty, every byte zero. -/
def Obligations.ResetIsTheEmptyCartridgeLoaded : Prop :=
  (∀ offset, load { reset := Config.zeroReset, mapper5ModeOffset := offset } .empty = .next State.reset) ∧
  State.reset.pc = 0x0000 ∧ State.reset.stall = false ∧ State.reset.cs = [] ∧ ∀ a, State.reset.read a = 0x00
end

