-- ==== Sys2Proof/Laws/Memory.lean ====
section
/-! SUPPORT. What each memory operation does: reads after writes, the cells of placed bytes, the end of a padding run,
and that every operation keeps the canonical form. -/

namespace Sys2Proof.Machine

@[simp] theorem Memory.readAt_nil (a : Nat) : Memory.readAt [] a = Memory.fill := rfl

@[simp] theorem Memory.readAt_cons (k : Nat) (v : Byte) (m : Memory) (a : Nat) :
    Memory.readAt ((k, v) :: m) a = if k = a then v else Memory.readAt m a := rfl

theorem Memory.readAt_of_absent {m : Memory} {a : Nat} (h : ∀ c ∈ m, c.1 ≠ a) : m.readAt a = Memory.fill := by
  induction m with
  | nil => rfl
  | cons c m ih =>
    obtain ⟨k, v⟩ := c
    have hk : k ≠ a := h (k, v) (by simp)
    rw [Memory.readAt_cons, if_neg hk]
    exact ih fun d hd => h d (by simp [hd])

theorem Memory.readAt_append (m n : Memory) (a : Nat) :
    Memory.readAt (m ++ n) a = if ∃ c ∈ m, c.1 = a then m.readAt a else n.readAt a := by
  induction m with
  | nil => simp
  | cons c m ih =>
    obtain ⟨k, v⟩ := c
    by_cases h : k = a
    · simp [h]
    · simp [h, ih]

theorem Memory.readAt_eraseAt (m : Memory) (a b : Nat) :
    (m.eraseAt a).readAt b = if b = a then Memory.fill else m.readAt b := by
  induction m with
  | nil => simp [Memory.eraseAt]
  | cons c m ih =>
    obtain ⟨k, v⟩ := c
    unfold Memory.eraseAt at ih ⊢
    by_cases hk : k = a
    · rw [List.filter_cons_of_neg (by simp [hk]), ih]
      split <;> simp_all [Memory.readAt_cons, eq_comm]
    · rw [List.filter_cons_of_pos (by simp [hk]), Memory.readAt_cons, Memory.readAt_cons, ih]
      split <;> simp_all

theorem Memory.absent_eraseAt (m : Memory) (a : Nat) : ∀ c ∈ m.eraseAt a, c.1 ≠ a := by
  intro c hc
  simpa using (List.mem_filter.mp hc).2

theorem Memory.readAt_insertAt {m : Memory} {a : Nat} (h : ∀ c ∈ m, c.1 ≠ a) (v : Byte) (b : Nat) :
    (m.insertAt a v).readAt b = if b = a then v else m.readAt b := by
  induction m with
  | nil => simp [Memory.insertAt, eq_comm]
  | cons c m ih =>
    obtain ⟨k, w⟩ := c
    have hk : k ≠ a := h (k, w) (by simp)
    have ih := ih fun d hd => h d (by simp [hd])
    unfold Memory.insertAt
    split
    · simp [eq_comm]
    · rw [Memory.readAt_cons, Memory.readAt_cons, ih]
      by_cases hb : b = a
      · simp [hb, hk]
      · simp [hb]

/-- The law of memory: a write sets the byte it names and leaves every other byte alone, in every memory (R72). -/
theorem Memory.readAt_writeAt (m : Memory) (a : Nat) (v : Byte) (b : Nat) :
    (m.writeAt a v).readAt b = if b = a then v else m.readAt b := by
  unfold Memory.writeAt
  split
  · rename_i hv; rw [Memory.readAt_eraseAt, hv]
  · rw [Memory.readAt_insertAt (Memory.absent_eraseAt m a), Memory.readAt_eraseAt]
    split <;> rfl

theorem Memory.mem_insertAt {m : Memory} {a : Nat} {v : Byte} {c : Host.Cell} :
    c ∈ m.insertAt a v ↔ c = (a, v) ∨ c ∈ m := by
  induction m with
  | nil => simp [Memory.insertAt]
  | cons d m ih =>
    obtain ⟨k, w⟩ := d
    unfold Memory.insertAt
    split
    · simp
    · simp only [List.mem_cons, ih]; tauto

theorem Memory.pairwise_insertAt {m : Memory} {a : Nat} (v : Byte) (h : ∀ c ∈ m, c.1 ≠ a)
    (hm : List.Pairwise (fun c d : Host.Cell => c.1 < d.1) m) :
    List.Pairwise (fun c d : Host.Cell => c.1 < d.1) (m.insertAt a v) := by
  induction m with
  | nil => simp [Memory.insertAt]
  | cons d m ih =>
    obtain ⟨k, w⟩ := d
    have hk : k ≠ a := h (k, w) (by simp)
    have hd := List.pairwise_cons.mp hm
    unfold Memory.insertAt
    split
    · rename_i hlt
      refine List.pairwise_cons.mpr ⟨fun c hc => ?_, hm⟩
      rcases List.mem_cons.mp hc with rfl | hc
      · exact hlt
      · exact Nat.lt_trans hlt (hd.1 c hc)
    · rename_i hlt
      refine List.pairwise_cons.mpr ⟨fun c hc => ?_, ih (fun c hc => h c (by simp [hc])) hd.2⟩
      rcases Memory.mem_insertAt.mp hc with rfl | hc
      · show k < a
        omega
      · exact hd.1 c hc

theorem Memory.wf_nil : Memory.wf [] := by simp [Memory.wf]

theorem Memory.wf_eraseAt {m : Memory} (a : Nat) (h : m.wf) : (m.eraseAt a).wf :=
  ⟨h.1.filter _, fun c hc => h.2 c (List.mem_filter.mp hc).1⟩

/-- A write keeps the canonical form. -/
theorem Memory.wf_writeAt {m : Memory} {a : Nat} (v : Byte) (ha : a < 0x10000) (h : m.wf) : (m.writeAt a v).wf := by
  unfold Memory.writeAt
  split
  · exact Memory.wf_eraseAt a h
  · rename_i hv
    have he := Memory.wf_eraseAt a h
    refine ⟨Memory.pairwise_insertAt v (Memory.absent_eraseAt m a) he.1, fun c hc => ?_⟩
    rcases Memory.mem_insertAt.mp hc with rfl | hc
    · exact ⟨ha, hv⟩
    · exact he.2 c hc

theorem Memory.cellsFrom_cons (base : Nat) (b : Byte) (bs : List Byte) :
    Memory.cellsFrom base (b :: bs) =
      if b = Memory.fill then Memory.cellsFrom (base + 1) bs else (base, b) :: Memory.cellsFrom (base + 1) bs := rfl

theorem Memory.mem_cellsFrom {base : Nat} {bs : List Byte} {c : Host.Cell} (h : c ∈ Memory.cellsFrom base bs) :
    base ≤ c.1 ∧ c.1 < base + bs.length ∧ c.2 ≠ Memory.fill := by
  induction bs generalizing base with
  | nil => simp [Memory.cellsFrom] at h
  | cons b bs ih =>
    rw [Memory.cellsFrom_cons] at h
    split at h
    · have := ih h
      rw [List.length_cons]
      exact ⟨by omega, by omega, this.2.2⟩
    · rename_i hb
      rcases List.mem_cons.mp h with rfl | h
      · simpa using hb
      · have := ih h
        rw [List.length_cons]
        exact ⟨by omega, by omega, this.2.2⟩

theorem Memory.pairwise_cellsFrom (base : Nat) (bs : List Byte) :
    List.Pairwise (fun c d : Host.Cell => c.1 < d.1) (Memory.cellsFrom base bs) := by
  induction bs generalizing base with
  | nil => simp [Memory.cellsFrom]
  | cons b bs ih =>
    rw [Memory.cellsFrom_cons]
    split
    · exact ih _
    · exact List.pairwise_cons.mpr ⟨fun c hc => by have := Memory.mem_cellsFrom hc; show base < c.1; omega, ih _⟩

/-- Placed bytes read back at their place, and nothing else is listed. -/
theorem Memory.readAt_cellsFrom (base : Nat) (bs : List Byte) (a : Nat) :
    (Memory.cellsFrom base bs).readAt a = if base ≤ a then bs.getD (a - base) Memory.fill else Memory.fill := by
  induction bs generalizing base with
  | nil => simp [Memory.cellsFrom]
  | cons b bs ih =>
    have hrec : Memory.readAt (Memory.cellsFrom base (b :: bs)) a =
        if base = a then b else (Memory.cellsFrom (base + 1) bs).readAt a := by
      rw [Memory.cellsFrom_cons]
      split
      · rename_i hb
        split
        · subst a
          rw [hb]
          exact Memory.readAt_of_absent fun c hc => by have := Memory.mem_cellsFrom hc; omega
        · rfl
      · rfl
    rw [hrec, ih]
    rcases Nat.lt_trichotomy a base with h | h | h
    · rw [if_neg (by omega), if_neg (by omega), if_neg (by omega)]
    · simp [h]
    · rw [if_neg (by omega), if_pos (by omega), if_pos (by omega),
        show a - base = (a - (base + 1)) + 1 by omega, List.getD_cons_succ]

/-- Bytes placed inside the address space are a canonical memory. -/
theorem Memory.wf_cellsFrom {base : Nat} {bs : List Byte} (h : base + bs.length ≤ 0x10000) :
    (Memory.cellsFrom base bs).wf :=
  ⟨Memory.pairwise_cellsFrom base bs, fun c hc => by have := Memory.mem_cellsFrom hc; exact ⟨by omega, this.2.2⟩⟩

/-- Two canonical memories, the first below `k` and the second from `k` on, make one. -/
theorem Memory.wf_append {m n : Memory} {k : Nat} (hm : m.wf) (hn : n.wf) (hmk : ∀ c ∈ m, c.1 < k)
    (hnk : ∀ c ∈ n, k ≤ c.1) : Memory.wf (m ++ n) := by
  refine ⟨List.pairwise_append.mpr ⟨hm.1, hn.1, fun c hc d hd => ?_⟩, fun c hc => ?_⟩
  · exact Nat.lt_of_lt_of_le (hmk c hc) (hnk d hd)
  · rcases List.mem_append.mp hc with hc | hc
    · exact hm.2 c hc
    · exact hn.2 c hc

/-- Where a padding run ends (R123): not before its start and not past 0xFFFF, over zero bytes only, at 0xFFFF or at a
byte that is not zero. -/
theorem Memory.paddingEnd_spec (m : Memory) {start : Nat} (hs : start ≤ 0xFFFF) :
    start ≤ m.paddingEnd start ∧ m.paddingEnd start ≤ 0xFFFF ∧
    (m.paddingEnd start = 0xFFFF ∨ m.readAt (m.paddingEnd start) ≠ 0x00) ∧
    ∀ a, start ≤ a → a < m.paddingEnd start → m.readAt a = 0x00 := by
  suffices H : ∀ (l : Memory) (best : Nat), start ≤ best → best ≤ 0xFFFF →
      (best = 0xFFFF ∨ m.readAt best ≠ 0x00) →
      let r := l.foldl (fun best c => if start ≤ c.1 ∧ c.1 < best ∧ m.readAt c.1 ≠ 0x00 then c.1 else best) best
      start ≤ r ∧ r ≤ best ∧ (r = 0xFFFF ∨ m.readAt r ≠ 0x00) ∧
      ∀ c ∈ l, start ≤ c.1 → c.1 < r → m.readAt c.1 = 0x00 by
    have h := H m 0xFFFF hs le_rfl (Or.inl rfl)
    refine ⟨h.1, h.2.1, h.2.2.1, fun a h1 h2 => ?_⟩
    by_cases hex : ∃ c ∈ m, c.1 = a
    · obtain ⟨c, hc, rfl⟩ := hex
      exact h.2.2.2 c hc h1 h2
    · exact Memory.readAt_of_absent fun c hc hca => hex ⟨c, hc, hca⟩
  intro l
  induction l with
  | nil => intro best h1 h2 h3; exact ⟨h1, le_rfl, h3, by simp⟩
  | cons c l ih =>
    intro best h1 h2 h3
    simp only [List.foldl_cons]
    by_cases hc : start ≤ c.1 ∧ c.1 < best ∧ m.readAt c.1 ≠ 0x00
    · rw [if_pos hc]
      obtain ⟨r1, r2, r3, r4⟩ := ih c.1 hc.1 (by omega) (Or.inr hc.2.2)
      refine ⟨r1, le_trans r2 (le_of_lt hc.2.1), r3, fun d hd h4 h5 => ?_⟩
      rcases List.mem_cons.mp hd with rfl | hd
      · exact absurd h5 (by omega)
      · exact r4 d hd h4 h5
    · rw [if_neg hc]
      obtain ⟨r1, r2, r3, r4⟩ := ih best h1 h2 h3
      refine ⟨r1, r2, r3, fun d hd h4 h5 => ?_⟩
      rcases List.mem_cons.mp hd with rfl | hd
      · by_contra hne
        exact hc ⟨h4, by omega, hne⟩
      · exact r4 d hd h4 h5

end Sys2Proof.Machine
end

