-- ==== Sys2Proof/Laws/State.lean ====
section
/-! SUPPORT. One lemma per field of State per update, true by rfl, so that no later proof unfolds a record update. -/

namespace Sys2Proof.Machine

/-! `setA` -/
@[simp] theorem State.setA_a (s : State) (v : Byte) : (s.setA v).a = v := rfl
@[simp] theorem State.setA_x (s : State) (v : Byte) : (s.setA v).x = s.x := rfl
@[simp] theorem State.setA_y (s : State) (v : Byte) : (s.setA v).y = s.y := rfl
@[simp] theorem State.setA_sp (s : State) (v : Byte) : (s.setA v).sp = s.sp := rfl
@[simp] theorem State.setA_pc (s : State) (v : Byte) : (s.setA v).pc = s.pc := rfl
@[simp] theorem State.setA_flagN (s : State) (v : Byte) : (s.setA v).flagN = s.flagN := rfl
@[simp] theorem State.setA_flagV (s : State) (v : Byte) : (s.setA v).flagV = s.flagV := rfl
@[simp] theorem State.setA_flagB (s : State) (v : Byte) : (s.setA v).flagB = s.flagB := rfl
@[simp] theorem State.setA_flagD (s : State) (v : Byte) : (s.setA v).flagD = s.flagD := rfl
@[simp] theorem State.setA_flagI (s : State) (v : Byte) : (s.setA v).flagI = s.flagI := rfl
@[simp] theorem State.setA_flagZ (s : State) (v : Byte) : (s.setA v).flagZ = s.flagZ := rfl
@[simp] theorem State.setA_flagC (s : State) (v : Byte) : (s.setA v).flagC = s.flagC := rfl
@[simp] theorem State.setA_stall (s : State) (v : Byte) : (s.setA v).stall = s.stall := rfl
@[simp] theorem State.setA_cs (s : State) (v : Byte) : (s.setA v).cs = s.cs := rfl
@[simp] theorem State.setA_mem (s : State) (v : Byte) : (s.setA v).mem = s.mem := rfl
@[simp] theorem State.setA_read (s : State) (v : Byte) (addr : Address) : (s.setA v).read addr = s.read addr := rfl

/-! `setX` -/
@[simp] theorem State.setX_a (s : State) (v : Byte) : (s.setX v).a = s.a := rfl
@[simp] theorem State.setX_x (s : State) (v : Byte) : (s.setX v).x = v := rfl
@[simp] theorem State.setX_y (s : State) (v : Byte) : (s.setX v).y = s.y := rfl
@[simp] theorem State.setX_sp (s : State) (v : Byte) : (s.setX v).sp = s.sp := rfl
@[simp] theorem State.setX_pc (s : State) (v : Byte) : (s.setX v).pc = s.pc := rfl
@[simp] theorem State.setX_flagN (s : State) (v : Byte) : (s.setX v).flagN = s.flagN := rfl
@[simp] theorem State.setX_flagV (s : State) (v : Byte) : (s.setX v).flagV = s.flagV := rfl
@[simp] theorem State.setX_flagB (s : State) (v : Byte) : (s.setX v).flagB = s.flagB := rfl
@[simp] theorem State.setX_flagD (s : State) (v : Byte) : (s.setX v).flagD = s.flagD := rfl
@[simp] theorem State.setX_flagI (s : State) (v : Byte) : (s.setX v).flagI = s.flagI := rfl
@[simp] theorem State.setX_flagZ (s : State) (v : Byte) : (s.setX v).flagZ = s.flagZ := rfl
@[simp] theorem State.setX_flagC (s : State) (v : Byte) : (s.setX v).flagC = s.flagC := rfl
@[simp] theorem State.setX_stall (s : State) (v : Byte) : (s.setX v).stall = s.stall := rfl
@[simp] theorem State.setX_cs (s : State) (v : Byte) : (s.setX v).cs = s.cs := rfl
@[simp] theorem State.setX_mem (s : State) (v : Byte) : (s.setX v).mem = s.mem := rfl
@[simp] theorem State.setX_read (s : State) (v : Byte) (addr : Address) : (s.setX v).read addr = s.read addr := rfl

/-! `setY` -/
@[simp] theorem State.setY_a (s : State) (v : Byte) : (s.setY v).a = s.a := rfl
@[simp] theorem State.setY_x (s : State) (v : Byte) : (s.setY v).x = s.x := rfl
@[simp] theorem State.setY_y (s : State) (v : Byte) : (s.setY v).y = v := rfl
@[simp] theorem State.setY_sp (s : State) (v : Byte) : (s.setY v).sp = s.sp := rfl
@[simp] theorem State.setY_pc (s : State) (v : Byte) : (s.setY v).pc = s.pc := rfl
@[simp] theorem State.setY_flagN (s : State) (v : Byte) : (s.setY v).flagN = s.flagN := rfl
@[simp] theorem State.setY_flagV (s : State) (v : Byte) : (s.setY v).flagV = s.flagV := rfl
@[simp] theorem State.setY_flagB (s : State) (v : Byte) : (s.setY v).flagB = s.flagB := rfl
@[simp] theorem State.setY_flagD (s : State) (v : Byte) : (s.setY v).flagD = s.flagD := rfl
@[simp] theorem State.setY_flagI (s : State) (v : Byte) : (s.setY v).flagI = s.flagI := rfl
@[simp] theorem State.setY_flagZ (s : State) (v : Byte) : (s.setY v).flagZ = s.flagZ := rfl
@[simp] theorem State.setY_flagC (s : State) (v : Byte) : (s.setY v).flagC = s.flagC := rfl
@[simp] theorem State.setY_stall (s : State) (v : Byte) : (s.setY v).stall = s.stall := rfl
@[simp] theorem State.setY_cs (s : State) (v : Byte) : (s.setY v).cs = s.cs := rfl
@[simp] theorem State.setY_mem (s : State) (v : Byte) : (s.setY v).mem = s.mem := rfl
@[simp] theorem State.setY_read (s : State) (v : Byte) (addr : Address) : (s.setY v).read addr = s.read addr := rfl

/-! `setPc` -/
@[simp] theorem State.setPc_a (s : State) (t : Address) : (s.setPc t).a = s.a := rfl
@[simp] theorem State.setPc_x (s : State) (t : Address) : (s.setPc t).x = s.x := rfl
@[simp] theorem State.setPc_y (s : State) (t : Address) : (s.setPc t).y = s.y := rfl
@[simp] theorem State.setPc_sp (s : State) (t : Address) : (s.setPc t).sp = s.sp := rfl
@[simp] theorem State.setPc_pc (s : State) (t : Address) : (s.setPc t).pc = t := rfl
@[simp] theorem State.setPc_flagN (s : State) (t : Address) : (s.setPc t).flagN = s.flagN := rfl
@[simp] theorem State.setPc_flagV (s : State) (t : Address) : (s.setPc t).flagV = s.flagV := rfl
@[simp] theorem State.setPc_flagB (s : State) (t : Address) : (s.setPc t).flagB = s.flagB := rfl
@[simp] theorem State.setPc_flagD (s : State) (t : Address) : (s.setPc t).flagD = s.flagD := rfl
@[simp] theorem State.setPc_flagI (s : State) (t : Address) : (s.setPc t).flagI = s.flagI := rfl
@[simp] theorem State.setPc_flagZ (s : State) (t : Address) : (s.setPc t).flagZ = s.flagZ := rfl
@[simp] theorem State.setPc_flagC (s : State) (t : Address) : (s.setPc t).flagC = s.flagC := rfl
@[simp] theorem State.setPc_stall (s : State) (t : Address) : (s.setPc t).stall = s.stall := rfl
@[simp] theorem State.setPc_cs (s : State) (t : Address) : (s.setPc t).cs = s.cs := rfl
@[simp] theorem State.setPc_mem (s : State) (t : Address) : (s.setPc t).mem = s.mem := rfl
@[simp] theorem State.setPc_read (s : State) (t : Address) (addr : Address) : (s.setPc t).read addr = s.read addr := rfl

/-! `advance` -/
@[simp] theorem State.advance_a (s : State) (n : Address) : (s.advance n).a = s.a := rfl
@[simp] theorem State.advance_x (s : State) (n : Address) : (s.advance n).x = s.x := rfl
@[simp] theorem State.advance_y (s : State) (n : Address) : (s.advance n).y = s.y := rfl
@[simp] theorem State.advance_sp (s : State) (n : Address) : (s.advance n).sp = s.sp := rfl
@[simp] theorem State.advance_pc (s : State) (n : Address) : (s.advance n).pc = s.pc + n := rfl
@[simp] theorem State.advance_flagN (s : State) (n : Address) : (s.advance n).flagN = s.flagN := rfl
@[simp] theorem State.advance_flagV (s : State) (n : Address) : (s.advance n).flagV = s.flagV := rfl
@[simp] theorem State.advance_flagB (s : State) (n : Address) : (s.advance n).flagB = s.flagB := rfl
@[simp] theorem State.advance_flagD (s : State) (n : Address) : (s.advance n).flagD = s.flagD := rfl
@[simp] theorem State.advance_flagI (s : State) (n : Address) : (s.advance n).flagI = s.flagI := rfl
@[simp] theorem State.advance_flagZ (s : State) (n : Address) : (s.advance n).flagZ = s.flagZ := rfl
@[simp] theorem State.advance_flagC (s : State) (n : Address) : (s.advance n).flagC = s.flagC := rfl
@[simp] theorem State.advance_stall (s : State) (n : Address) : (s.advance n).stall = s.stall := rfl
@[simp] theorem State.advance_cs (s : State) (n : Address) : (s.advance n).cs = s.cs := rfl
@[simp] theorem State.advance_mem (s : State) (n : Address) : (s.advance n).mem = s.mem := rfl
@[simp] theorem State.advance_read (s : State) (n : Address) (addr : Address) : (s.advance n).read addr = s.read addr := rfl

/-! `setFlagN` -/
@[simp] theorem State.setFlagN_a (s : State) (f : Bool) : (s.setFlagN f).a = s.a := rfl
@[simp] theorem State.setFlagN_x (s : State) (f : Bool) : (s.setFlagN f).x = s.x := rfl
@[simp] theorem State.setFlagN_y (s : State) (f : Bool) : (s.setFlagN f).y = s.y := rfl
@[simp] theorem State.setFlagN_sp (s : State) (f : Bool) : (s.setFlagN f).sp = s.sp := rfl
@[simp] theorem State.setFlagN_pc (s : State) (f : Bool) : (s.setFlagN f).pc = s.pc := rfl
@[simp] theorem State.setFlagN_flagN (s : State) (f : Bool) : (s.setFlagN f).flagN = f := rfl
@[simp] theorem State.setFlagN_flagV (s : State) (f : Bool) : (s.setFlagN f).flagV = s.flagV := rfl
@[simp] theorem State.setFlagN_flagB (s : State) (f : Bool) : (s.setFlagN f).flagB = s.flagB := rfl
@[simp] theorem State.setFlagN_flagD (s : State) (f : Bool) : (s.setFlagN f).flagD = s.flagD := rfl
@[simp] theorem State.setFlagN_flagI (s : State) (f : Bool) : (s.setFlagN f).flagI = s.flagI := rfl
@[simp] theorem State.setFlagN_flagZ (s : State) (f : Bool) : (s.setFlagN f).flagZ = s.flagZ := rfl
@[simp] theorem State.setFlagN_flagC (s : State) (f : Bool) : (s.setFlagN f).flagC = s.flagC := rfl
@[simp] theorem State.setFlagN_stall (s : State) (f : Bool) : (s.setFlagN f).stall = s.stall := rfl
@[simp] theorem State.setFlagN_cs (s : State) (f : Bool) : (s.setFlagN f).cs = s.cs := rfl
@[simp] theorem State.setFlagN_mem (s : State) (f : Bool) : (s.setFlagN f).mem = s.mem := rfl
@[simp] theorem State.setFlagN_read (s : State) (f : Bool) (addr : Address) : (s.setFlagN f).read addr = s.read addr := rfl

/-! `setFlagV` -/
@[simp] theorem State.setFlagV_a (s : State) (f : Bool) : (s.setFlagV f).a = s.a := rfl
@[simp] theorem State.setFlagV_x (s : State) (f : Bool) : (s.setFlagV f).x = s.x := rfl
@[simp] theorem State.setFlagV_y (s : State) (f : Bool) : (s.setFlagV f).y = s.y := rfl
@[simp] theorem State.setFlagV_sp (s : State) (f : Bool) : (s.setFlagV f).sp = s.sp := rfl
@[simp] theorem State.setFlagV_pc (s : State) (f : Bool) : (s.setFlagV f).pc = s.pc := rfl
@[simp] theorem State.setFlagV_flagN (s : State) (f : Bool) : (s.setFlagV f).flagN = s.flagN := rfl
@[simp] theorem State.setFlagV_flagV (s : State) (f : Bool) : (s.setFlagV f).flagV = f := rfl
@[simp] theorem State.setFlagV_flagB (s : State) (f : Bool) : (s.setFlagV f).flagB = s.flagB := rfl
@[simp] theorem State.setFlagV_flagD (s : State) (f : Bool) : (s.setFlagV f).flagD = s.flagD := rfl
@[simp] theorem State.setFlagV_flagI (s : State) (f : Bool) : (s.setFlagV f).flagI = s.flagI := rfl
@[simp] theorem State.setFlagV_flagZ (s : State) (f : Bool) : (s.setFlagV f).flagZ = s.flagZ := rfl
@[simp] theorem State.setFlagV_flagC (s : State) (f : Bool) : (s.setFlagV f).flagC = s.flagC := rfl
@[simp] theorem State.setFlagV_stall (s : State) (f : Bool) : (s.setFlagV f).stall = s.stall := rfl
@[simp] theorem State.setFlagV_cs (s : State) (f : Bool) : (s.setFlagV f).cs = s.cs := rfl
@[simp] theorem State.setFlagV_mem (s : State) (f : Bool) : (s.setFlagV f).mem = s.mem := rfl
@[simp] theorem State.setFlagV_read (s : State) (f : Bool) (addr : Address) : (s.setFlagV f).read addr = s.read addr := rfl

/-! `setFlagD` -/
@[simp] theorem State.setFlagD_a (s : State) (f : Bool) : (s.setFlagD f).a = s.a := rfl
@[simp] theorem State.setFlagD_x (s : State) (f : Bool) : (s.setFlagD f).x = s.x := rfl
@[simp] theorem State.setFlagD_y (s : State) (f : Bool) : (s.setFlagD f).y = s.y := rfl
@[simp] theorem State.setFlagD_sp (s : State) (f : Bool) : (s.setFlagD f).sp = s.sp := rfl
@[simp] theorem State.setFlagD_pc (s : State) (f : Bool) : (s.setFlagD f).pc = s.pc := rfl
@[simp] theorem State.setFlagD_flagN (s : State) (f : Bool) : (s.setFlagD f).flagN = s.flagN := rfl
@[simp] theorem State.setFlagD_flagV (s : State) (f : Bool) : (s.setFlagD f).flagV = s.flagV := rfl
@[simp] theorem State.setFlagD_flagB (s : State) (f : Bool) : (s.setFlagD f).flagB = s.flagB := rfl
@[simp] theorem State.setFlagD_flagD (s : State) (f : Bool) : (s.setFlagD f).flagD = f := rfl
@[simp] theorem State.setFlagD_flagI (s : State) (f : Bool) : (s.setFlagD f).flagI = s.flagI := rfl
@[simp] theorem State.setFlagD_flagZ (s : State) (f : Bool) : (s.setFlagD f).flagZ = s.flagZ := rfl
@[simp] theorem State.setFlagD_flagC (s : State) (f : Bool) : (s.setFlagD f).flagC = s.flagC := rfl
@[simp] theorem State.setFlagD_stall (s : State) (f : Bool) : (s.setFlagD f).stall = s.stall := rfl
@[simp] theorem State.setFlagD_cs (s : State) (f : Bool) : (s.setFlagD f).cs = s.cs := rfl
@[simp] theorem State.setFlagD_mem (s : State) (f : Bool) : (s.setFlagD f).mem = s.mem := rfl
@[simp] theorem State.setFlagD_read (s : State) (f : Bool) (addr : Address) : (s.setFlagD f).read addr = s.read addr := rfl

/-! `setFlagI` -/
@[simp] theorem State.setFlagI_a (s : State) (f : Bool) : (s.setFlagI f).a = s.a := rfl
@[simp] theorem State.setFlagI_x (s : State) (f : Bool) : (s.setFlagI f).x = s.x := rfl
@[simp] theorem State.setFlagI_y (s : State) (f : Bool) : (s.setFlagI f).y = s.y := rfl
@[simp] theorem State.setFlagI_sp (s : State) (f : Bool) : (s.setFlagI f).sp = s.sp := rfl
@[simp] theorem State.setFlagI_pc (s : State) (f : Bool) : (s.setFlagI f).pc = s.pc := rfl
@[simp] theorem State.setFlagI_flagN (s : State) (f : Bool) : (s.setFlagI f).flagN = s.flagN := rfl
@[simp] theorem State.setFlagI_flagV (s : State) (f : Bool) : (s.setFlagI f).flagV = s.flagV := rfl
@[simp] theorem State.setFlagI_flagB (s : State) (f : Bool) : (s.setFlagI f).flagB = s.flagB := rfl
@[simp] theorem State.setFlagI_flagD (s : State) (f : Bool) : (s.setFlagI f).flagD = s.flagD := rfl
@[simp] theorem State.setFlagI_flagI (s : State) (f : Bool) : (s.setFlagI f).flagI = f := rfl
@[simp] theorem State.setFlagI_flagZ (s : State) (f : Bool) : (s.setFlagI f).flagZ = s.flagZ := rfl
@[simp] theorem State.setFlagI_flagC (s : State) (f : Bool) : (s.setFlagI f).flagC = s.flagC := rfl
@[simp] theorem State.setFlagI_stall (s : State) (f : Bool) : (s.setFlagI f).stall = s.stall := rfl
@[simp] theorem State.setFlagI_cs (s : State) (f : Bool) : (s.setFlagI f).cs = s.cs := rfl
@[simp] theorem State.setFlagI_mem (s : State) (f : Bool) : (s.setFlagI f).mem = s.mem := rfl
@[simp] theorem State.setFlagI_read (s : State) (f : Bool) (addr : Address) : (s.setFlagI f).read addr = s.read addr := rfl

/-! `setFlagZ` -/
@[simp] theorem State.setFlagZ_a (s : State) (f : Bool) : (s.setFlagZ f).a = s.a := rfl
@[simp] theorem State.setFlagZ_x (s : State) (f : Bool) : (s.setFlagZ f).x = s.x := rfl
@[simp] theorem State.setFlagZ_y (s : State) (f : Bool) : (s.setFlagZ f).y = s.y := rfl
@[simp] theorem State.setFlagZ_sp (s : State) (f : Bool) : (s.setFlagZ f).sp = s.sp := rfl
@[simp] theorem State.setFlagZ_pc (s : State) (f : Bool) : (s.setFlagZ f).pc = s.pc := rfl
@[simp] theorem State.setFlagZ_flagN (s : State) (f : Bool) : (s.setFlagZ f).flagN = s.flagN := rfl
@[simp] theorem State.setFlagZ_flagV (s : State) (f : Bool) : (s.setFlagZ f).flagV = s.flagV := rfl
@[simp] theorem State.setFlagZ_flagB (s : State) (f : Bool) : (s.setFlagZ f).flagB = s.flagB := rfl
@[simp] theorem State.setFlagZ_flagD (s : State) (f : Bool) : (s.setFlagZ f).flagD = s.flagD := rfl
@[simp] theorem State.setFlagZ_flagI (s : State) (f : Bool) : (s.setFlagZ f).flagI = s.flagI := rfl
@[simp] theorem State.setFlagZ_flagZ (s : State) (f : Bool) : (s.setFlagZ f).flagZ = f := rfl
@[simp] theorem State.setFlagZ_flagC (s : State) (f : Bool) : (s.setFlagZ f).flagC = s.flagC := rfl
@[simp] theorem State.setFlagZ_stall (s : State) (f : Bool) : (s.setFlagZ f).stall = s.stall := rfl
@[simp] theorem State.setFlagZ_cs (s : State) (f : Bool) : (s.setFlagZ f).cs = s.cs := rfl
@[simp] theorem State.setFlagZ_mem (s : State) (f : Bool) : (s.setFlagZ f).mem = s.mem := rfl
@[simp] theorem State.setFlagZ_read (s : State) (f : Bool) (addr : Address) : (s.setFlagZ f).read addr = s.read addr := rfl

/-! `setStall` -/
@[simp] theorem State.setStall_a (s : State) (f : Bool) : (s.setStall f).a = s.a := rfl
@[simp] theorem State.setStall_x (s : State) (f : Bool) : (s.setStall f).x = s.x := rfl
@[simp] theorem State.setStall_y (s : State) (f : Bool) : (s.setStall f).y = s.y := rfl
@[simp] theorem State.setStall_sp (s : State) (f : Bool) : (s.setStall f).sp = s.sp := rfl
@[simp] theorem State.setStall_pc (s : State) (f : Bool) : (s.setStall f).pc = s.pc := rfl
@[simp] theorem State.setStall_flagN (s : State) (f : Bool) : (s.setStall f).flagN = s.flagN := rfl
@[simp] theorem State.setStall_flagV (s : State) (f : Bool) : (s.setStall f).flagV = s.flagV := rfl
@[simp] theorem State.setStall_flagB (s : State) (f : Bool) : (s.setStall f).flagB = s.flagB := rfl
@[simp] theorem State.setStall_flagD (s : State) (f : Bool) : (s.setStall f).flagD = s.flagD := rfl
@[simp] theorem State.setStall_flagI (s : State) (f : Bool) : (s.setStall f).flagI = s.flagI := rfl
@[simp] theorem State.setStall_flagZ (s : State) (f : Bool) : (s.setStall f).flagZ = s.flagZ := rfl
@[simp] theorem State.setStall_flagC (s : State) (f : Bool) : (s.setStall f).flagC = s.flagC := rfl
@[simp] theorem State.setStall_stall (s : State) (f : Bool) : (s.setStall f).stall = f := rfl
@[simp] theorem State.setStall_cs (s : State) (f : Bool) : (s.setStall f).cs = s.cs := rfl
@[simp] theorem State.setStall_mem (s : State) (f : Bool) : (s.setStall f).mem = s.mem := rfl
@[simp] theorem State.setStall_read (s : State) (f : Bool) (addr : Address) : (s.setStall f).read addr = s.read addr := rfl

/-! `push` -/
@[simp] theorem State.push_a (s : State) (v : Address) : (s.push v).a = s.a := rfl
@[simp] theorem State.push_x (s : State) (v : Address) : (s.push v).x = s.x := rfl
@[simp] theorem State.push_y (s : State) (v : Address) : (s.push v).y = s.y := rfl
@[simp] theorem State.push_sp (s : State) (v : Address) : (s.push v).sp = s.sp := rfl
@[simp] theorem State.push_pc (s : State) (v : Address) : (s.push v).pc = s.pc := rfl
@[simp] theorem State.push_flagN (s : State) (v : Address) : (s.push v).flagN = s.flagN := rfl
@[simp] theorem State.push_flagV (s : State) (v : Address) : (s.push v).flagV = s.flagV := rfl
@[simp] theorem State.push_flagB (s : State) (v : Address) : (s.push v).flagB = s.flagB := rfl
@[simp] theorem State.push_flagD (s : State) (v : Address) : (s.push v).flagD = s.flagD := rfl
@[simp] theorem State.push_flagI (s : State) (v : Address) : (s.push v).flagI = s.flagI := rfl
@[simp] theorem State.push_flagZ (s : State) (v : Address) : (s.push v).flagZ = s.flagZ := rfl
@[simp] theorem State.push_flagC (s : State) (v : Address) : (s.push v).flagC = s.flagC := rfl
@[simp] theorem State.push_stall (s : State) (v : Address) : (s.push v).stall = s.stall := rfl
@[simp] theorem State.push_cs (s : State) (v : Address) : (s.push v).cs = s.cs ++ [v] := rfl
@[simp] theorem State.push_mem (s : State) (v : Address) : (s.push v).mem = s.mem := rfl
@[simp] theorem State.push_read (s : State) (v : Address) (addr : Address) : (s.push v).read addr = s.read addr := rfl

/-! `pushWithin`: `push` at every capacity, so `push`'s lemmas are its own. -/
@[simp] theorem State.pushWithin_eq_push (depth : Option Nat) (s : State) (v : Address) :
    s.pushWithin depth v = s.push v := rfl

/-! `write` -/
@[simp] theorem State.write_a (s : State) (addr : Address) (v : Byte) : (s.write addr v).a = s.a := rfl
@[simp] theorem State.write_x (s : State) (addr : Address) (v : Byte) : (s.write addr v).x = s.x := rfl
@[simp] theorem State.write_y (s : State) (addr : Address) (v : Byte) : (s.write addr v).y = s.y := rfl
@[simp] theorem State.write_sp (s : State) (addr : Address) (v : Byte) : (s.write addr v).sp = s.sp := rfl
@[simp] theorem State.write_pc (s : State) (addr : Address) (v : Byte) : (s.write addr v).pc = s.pc := rfl
@[simp] theorem State.write_flagN (s : State) (addr : Address) (v : Byte) : (s.write addr v).flagN = s.flagN := rfl
@[simp] theorem State.write_flagV (s : State) (addr : Address) (v : Byte) : (s.write addr v).flagV = s.flagV := rfl
@[simp] theorem State.write_flagB (s : State) (addr : Address) (v : Byte) : (s.write addr v).flagB = s.flagB := rfl
@[simp] theorem State.write_flagD (s : State) (addr : Address) (v : Byte) : (s.write addr v).flagD = s.flagD := rfl
@[simp] theorem State.write_flagI (s : State) (addr : Address) (v : Byte) : (s.write addr v).flagI = s.flagI := rfl
@[simp] theorem State.write_flagZ (s : State) (addr : Address) (v : Byte) : (s.write addr v).flagZ = s.flagZ := rfl
@[simp] theorem State.write_flagC (s : State) (addr : Address) (v : Byte) : (s.write addr v).flagC = s.flagC := rfl
@[simp] theorem State.write_stall (s : State) (addr : Address) (v : Byte) : (s.write addr v).stall = s.stall := rfl
@[simp] theorem State.write_cs (s : State) (addr : Address) (v : Byte) : (s.write addr v).cs = s.cs := rfl
@[simp] theorem State.write_mem (s : State) (addr : Address) (v : Byte) : (s.write addr v).mem = s.mem.writeAt addr.toNat v := rfl

/-! `setZN` -/
@[simp] theorem State.setZN_a (s : State) (v : Byte) : (s.setZN v).a = s.a := rfl
@[simp] theorem State.setZN_x (s : State) (v : Byte) : (s.setZN v).x = s.x := rfl
@[simp] theorem State.setZN_y (s : State) (v : Byte) : (s.setZN v).y = s.y := rfl
@[simp] theorem State.setZN_sp (s : State) (v : Byte) : (s.setZN v).sp = s.sp := rfl
@[simp] theorem State.setZN_pc (s : State) (v : Byte) : (s.setZN v).pc = s.pc := rfl
@[simp] theorem State.setZN_flagN (s : State) (v : Byte) : (s.setZN v).flagN = bit7 v := rfl
@[simp] theorem State.setZN_flagV (s : State) (v : Byte) : (s.setZN v).flagV = s.flagV := rfl
@[simp] theorem State.setZN_flagB (s : State) (v : Byte) : (s.setZN v).flagB = s.flagB := rfl
@[simp] theorem State.setZN_flagD (s : State) (v : Byte) : (s.setZN v).flagD = s.flagD := rfl
@[simp] theorem State.setZN_flagI (s : State) (v : Byte) : (s.setZN v).flagI = s.flagI := rfl
@[simp] theorem State.setZN_flagZ (s : State) (v : Byte) : (s.setZN v).flagZ = isZero v := rfl
@[simp] theorem State.setZN_flagC (s : State) (v : Byte) : (s.setZN v).flagC = s.flagC := rfl
@[simp] theorem State.setZN_stall (s : State) (v : Byte) : (s.setZN v).stall = s.stall := rfl
@[simp] theorem State.setZN_cs (s : State) (v : Byte) : (s.setZN v).cs = s.cs := rfl
@[simp] theorem State.setZN_mem (s : State) (v : Byte) : (s.setZN v).mem = s.mem := rfl
@[simp] theorem State.setZN_read (s : State) (v : Byte) (addr : Address) : (s.setZN v).read addr = s.read addr := rfl

/-! `setBitTest` -/
@[simp] theorem State.setBitTest_a (s : State) (m : Byte) : (s.setBitTest m).a = s.a := rfl
@[simp] theorem State.setBitTest_x (s : State) (m : Byte) : (s.setBitTest m).x = s.x := rfl
@[simp] theorem State.setBitTest_y (s : State) (m : Byte) : (s.setBitTest m).y = s.y := rfl
@[simp] theorem State.setBitTest_sp (s : State) (m : Byte) : (s.setBitTest m).sp = s.sp := rfl
@[simp] theorem State.setBitTest_pc (s : State) (m : Byte) : (s.setBitTest m).pc = s.pc := rfl
@[simp] theorem State.setBitTest_flagN (s : State) (m : Byte) : (s.setBitTest m).flagN = bit7 m := rfl
@[simp] theorem State.setBitTest_flagV (s : State) (m : Byte) : (s.setBitTest m).flagV = bit6 m := rfl
@[simp] theorem State.setBitTest_flagB (s : State) (m : Byte) : (s.setBitTest m).flagB = s.flagB := rfl
@[simp] theorem State.setBitTest_flagD (s : State) (m : Byte) : (s.setBitTest m).flagD = s.flagD := rfl
@[simp] theorem State.setBitTest_flagI (s : State) (m : Byte) : (s.setBitTest m).flagI = s.flagI := rfl
@[simp] theorem State.setBitTest_flagZ (s : State) (m : Byte) : (s.setBitTest m).flagZ = isZero (s.a &&& m) := rfl
@[simp] theorem State.setBitTest_flagC (s : State) (m : Byte) : (s.setBitTest m).flagC = s.flagC := rfl
@[simp] theorem State.setBitTest_stall (s : State) (m : Byte) : (s.setBitTest m).stall = s.stall := rfl
@[simp] theorem State.setBitTest_cs (s : State) (m : Byte) : (s.setBitTest m).cs = s.cs := rfl
@[simp] theorem State.setBitTest_mem (s : State) (m : Byte) : (s.setBitTest m).mem = s.mem := rfl
@[simp] theorem State.setBitTest_read (s : State) (m : Byte) (addr : Address) : (s.setBitTest m).read addr = s.read addr := rfl

/-! `loadA` -/
@[simp] theorem State.loadA_a (s : State) (v : Byte) : (s.loadA v).a = v := rfl
@[simp] theorem State.loadA_x (s : State) (v : Byte) : (s.loadA v).x = s.x := rfl
@[simp] theorem State.loadA_y (s : State) (v : Byte) : (s.loadA v).y = s.y := rfl
@[simp] theorem State.loadA_sp (s : State) (v : Byte) : (s.loadA v).sp = s.sp := rfl
@[simp] theorem State.loadA_pc (s : State) (v : Byte) : (s.loadA v).pc = s.pc := rfl
@[simp] theorem State.loadA_flagN (s : State) (v : Byte) : (s.loadA v).flagN = bit7 v := rfl
@[simp] theorem State.loadA_flagV (s : State) (v : Byte) : (s.loadA v).flagV = s.flagV := rfl
@[simp] theorem State.loadA_flagB (s : State) (v : Byte) : (s.loadA v).flagB = s.flagB := rfl
@[simp] theorem State.loadA_flagD (s : State) (v : Byte) : (s.loadA v).flagD = s.flagD := rfl
@[simp] theorem State.loadA_flagI (s : State) (v : Byte) : (s.loadA v).flagI = s.flagI := rfl
@[simp] theorem State.loadA_flagZ (s : State) (v : Byte) : (s.loadA v).flagZ = isZero v := rfl
@[simp] theorem State.loadA_flagC (s : State) (v : Byte) : (s.loadA v).flagC = s.flagC := rfl
@[simp] theorem State.loadA_stall (s : State) (v : Byte) : (s.loadA v).stall = s.stall := rfl
@[simp] theorem State.loadA_cs (s : State) (v : Byte) : (s.loadA v).cs = s.cs := rfl
@[simp] theorem State.loadA_mem (s : State) (v : Byte) : (s.loadA v).mem = s.mem := rfl
@[simp] theorem State.loadA_read (s : State) (v : Byte) (addr : Address) : (s.loadA v).read addr = s.read addr := rfl

/-! `skipPadding` -/
@[simp] theorem State.skipPadding_a (s : State) : s.skipPadding.a = s.a := rfl
@[simp] theorem State.skipPadding_x (s : State) : s.skipPadding.x = s.x := rfl
@[simp] theorem State.skipPadding_y (s : State) : s.skipPadding.y = s.y := rfl
@[simp] theorem State.skipPadding_sp (s : State) : s.skipPadding.sp = s.sp := rfl
@[simp] theorem State.skipPadding_pc (s : State) : s.skipPadding.pc = BitVec.ofNat 16 (s.mem.paddingEnd s.pc.toNat) := rfl
@[simp] theorem State.skipPadding_flagN (s : State) : s.skipPadding.flagN = s.flagN := rfl
@[simp] theorem State.skipPadding_flagV (s : State) : s.skipPadding.flagV = s.flagV := rfl
@[simp] theorem State.skipPadding_flagB (s : State) : s.skipPadding.flagB = s.flagB := rfl
@[simp] theorem State.skipPadding_flagD (s : State) : s.skipPadding.flagD = s.flagD := rfl
@[simp] theorem State.skipPadding_flagI (s : State) : s.skipPadding.flagI = s.flagI := rfl
@[simp] theorem State.skipPadding_flagZ (s : State) : s.skipPadding.flagZ = s.flagZ := rfl
@[simp] theorem State.skipPadding_flagC (s : State) : s.skipPadding.flagC = s.flagC := rfl
@[simp] theorem State.skipPadding_stall (s : State) : s.skipPadding.stall = s.stall := rfl
@[simp] theorem State.skipPadding_cs (s : State) : s.skipPadding.cs = s.cs := rfl
@[simp] theorem State.skipPadding_mem (s : State) : s.skipPadding.mem = s.mem := rfl
@[simp] theorem State.skipPadding_read (s : State) (addr : Address) : s.skipPadding.read addr = s.read addr := rfl

end Sys2Proof.Machine
end

