-- ==== Sys2Proof/Laws/Ops.lean ====
section
/-! SUPPORT. What each shared operation over registers, operands and flags does, once each. -/

namespace Sys2Proof.Machine

/-- A byte write seen by a byte read (R70, R72). -/
theorem State.read_write (s : State) (a : Address) (v : Byte) (b : Address) :
    (s.write a v).read b = if b = a then v else s.read b := by
  unfold State.read State.write
  rw [Memory.readAt_writeAt]
  by_cases h : b = a
  · simp [h]
  · rw [if_neg h, if_neg fun e => h (BitVec.eq_of_toNat_eq e)]

theorem State.advance_pc_toNat (s : State) (n : Address) :
    (s.advance n).pc.toNat = (s.pc.toNat + n.toNat) % 65536 := by
  simp [BitVec.toNat_add]

/-- Where the padding skip puts PC (R123). -/
theorem State.skipPadding_pc_toNat (s : State) : s.skipPadding.pc.toNat = s.mem.paddingEnd s.pc.toNat := by
  have h := (Memory.paddingEnd_spec s.mem (start := s.pc.toNat) (by have := s.pc.isLt; omega)).2.1
  rw [State.skipPadding_pc, BitVec.toNat_ofNat]
  omega

/-- A skip over nothing: the byte at PC is not zero. -/
theorem State.skipPadding_of_nonzero {s : State} (h : s.read s.pc ≠ 0x00) :
    s.skipPadding = s := by
  have hlt : s.pc.toNat ≤ 0xFFFF := by have := s.pc.isLt; omega
  obtain ⟨h1, h2, h3, h4⟩ := Memory.paddingEnd_spec s.mem hlt
  have he : s.skipPadding.pc = s.pc := by
    apply BitVec.eq_of_toNat_eq
    rw [s.skipPadding_pc_toNat]
    by_contra hne
    exact h (h4 _ le_rfl (by omega))
  show s.setPc s.skipPadding.pc = s
  rw [he]
  rfl

theorem zeroPageAddress_toNat (d8 : Byte) : (zeroPageAddress d8).toNat = d8.toNat := by
  have := d8.isLt
  simp [zeroPageAddress]
  omega

theorem bplTarget_toNat (pc : Address) (d8 : Byte) : (bplTarget pc d8).toNat = (pc.toNat + d8.toNat) % 65536 := by
  have := d8.isLt
  simp [bplTarget, BitVec.toNat_add]

theorem beqTarget_toNat (pc : Address) (d8 : Byte) :
    ((beqTarget pc d8).toNat : Int) = ((pc.toNat : Int) + (d8.toNat : Int) - 127) % 65536 := by
  simp [beqTarget, beqBias, BitVec.toNat_ofInt]
  omega

theorem isZero_eq (v : Byte) : isZero v = decide (v.toNat = 0) := by revert v; decide

theorem bit7_eq (v : Byte) : bit7 v = decide (128 ≤ v.toNat) := by revert v; decide

theorem bit6_eq (v : Byte) : bit6 v = decide (64 ≤ v.toNat % 128) := by revert v; decide

end Sys2Proof.Machine
end

