-- ==== Sys2Proof/Laws/PerInstr.lean ====
section
/-! SUPPORT. A law of every instruction, one lemma per constructor: an instruction's encoding has the length of its format
(R91, R92), and the first byte alone tells that length (R93). -/

namespace Sys2Proof.Laws.EncodedLength

/-- The bytes of a well-formed instruction are as many as it accounts for, and its opcode byte says so. -/
def Statement (i : Instr) : Prop :=
  i.wf = true → (encode i).length = instrLength i ∧ ∀ b, (encode i).head? = some b → opcodeLength b = instrLength i

theorem bpl (d8 : Byte) : Statement (.bpl d8) := fun _ => ⟨rfl, fun _ hb => by cases hb; rfl⟩

theorem jsr (d16 : Address) : Statement (.jsr d16) := fun _ => ⟨rfl, fun _ hb => by cases hb; rfl⟩

theorem bitAbs (d16 : Address) : Statement (.bitAbs d16) := fun _ => ⟨rfl, fun _ hb => by cases hb; rfl⟩

theorem andImm (d8 : Byte) : Statement (.andImm d8) := fun _ => ⟨rfl, fun _ hb => by cases hb; rfl⟩

theorem jmpAbs (d16 : Address) : Statement (.jmpAbs d16) := fun _ => ⟨rfl, fun _ hb => by cases hb; rfl⟩

theorem sei : Statement .sei := fun _ => ⟨rfl, fun _ hb => by cases hb; rfl⟩

theorem staZp (d8 : Byte) : Statement (.staZp d8) := fun _ => ⟨rfl, fun _ hb => by cases hb; rfl⟩

theorem stxZp (d8 : Byte) : Statement (.stxZp d8) := fun _ => ⟨rfl, fun _ hb => by cases hb; rfl⟩

theorem dey : Statement .dey := fun _ => ⟨rfl, fun _ hb => by cases hb; rfl⟩

theorem staAbs (d16 : Address) : Statement (.staAbs d16) := fun _ => ⟨rfl, fun _ hb => by cases hb; rfl⟩

theorem txs : Statement .txs := fun _ => ⟨rfl, fun _ hb => by cases hb; rfl⟩

theorem ldyImm (d8 : Byte) : Statement (.ldyImm d8) := fun _ => ⟨rfl, fun _ hb => by cases hb; rfl⟩

theorem ldxImm (d8 : Byte) : Statement (.ldxImm d8) := fun _ => ⟨rfl, fun _ hb => by cases hb; rfl⟩

theorem ldaImm (d8 : Byte) : Statement (.ldaImm d8) := fun _ => ⟨rfl, fun _ hb => by cases hb; rfl⟩

theorem ldaAbs (d16 : Address) : Statement (.ldaAbs d16) := fun _ => ⟨rfl, fun _ hb => by cases hb; rfl⟩

theorem ldaAbsX (d16 : Address) : Statement (.ldaAbsX d16) := fun _ => ⟨rfl, fun _ hb => by cases hb; rfl⟩

theorem ldaIndY : Statement .ldaIndY := fun _ => ⟨rfl, fun _ hb => by cases hb; rfl⟩

theorem cld : Statement .cld := fun _ => ⟨rfl, fun _ hb => by cases hb; rfl⟩

theorem nop : Statement .nop := fun _ => ⟨rfl, fun _ hb => by cases hb; rfl⟩

theorem beq (d8 : Byte) : Statement (.beq d8) := fun _ => ⟨rfl, fun _ hb => by cases hb; rfl⟩

theorem pad : Statement .pad := fun _ => ⟨rfl, fun _ hb => by cases hb; rfl⟩

theorem unsupported (op : Byte) : Statement (.unsupported op) := by
  have h : ∀ b : Byte, (Instr.unsupported b).wf = true → opcodeLength b = 1 := by decide
  intro hw
  refine ⟨rfl, fun b hb => ?_⟩
  cases hb
  exact h op hw

end Sys2Proof.Laws.EncodedLength
end

