-- ==== Sys2Proof/Laws/Tick.lean ====
section
/-! SUPPORT. What a tick does in each of its steps, at any choice of its parameters, and induction along a run, once
each. -/

namespace Sys2Proof.Machine

theorem execIn_default (i : Instr) (s : State) : execIn defaultTickParams i s = exec i s := by
  cases i <;> rfl

theorem tick_eq (s : State) : tick s = tickIn defaultTickParams s := rfl

theorem step_eq (s : State) : step s = stepIn defaultTickParams s := rfl

/-- Past steps 1 and 2 a tick is its padding skip and what follows (R120). -/
theorem tickIn_of_running (p : Config.TickParams) {s : State} (h : s.Running) : tickIn p s = skipThenFetch p s := by
  unfold tickIn
  rw [if_neg h.1, if_neg (by simp [h.2])]

/-- Step 3 that comes to rest at 0xFFFF ends the tick (R123). -/
theorem skipThenFetch_at_end (p : Config.TickParams) {s : State} (h : s.skipPadding.pc = endOfMemory) :
    skipThenFetch p s = .next (s.skipPadding, .skippedToEnd (s.skipPadding.pc.toNat - s.pc.toNat)) :=
  if_pos h

/-- Step 3 that comes to rest below 0xFFFF is followed by the fetch (R123, R124). -/
theorem skipThenFetch_below_end (p : Config.TickParams) {s : State} (h : s.skipPadding.pc ≠ endOfMemory) :
    skipThenFetch p s = fetchAndDispatch p (s.skipPadding.pc.toNat - s.pc.toNat) s.skipPadding :=
  if_neg h

/-- Steps 4 and 5 when the fetched instruction answers a next state (R124, R125). -/
theorem fetchAndDispatch_next {p : Config.TickParams} {n : Nat} {s t : State}
    (h : execIn p (s.instrAtPc p.opcodes) (s.advance 1) = .next t) :
    fetchAndDispatch p n s = .next (t, reportOf p.opcodes (s.read s.pc) s.pc n) := by
  unfold fetchAndDispatch
  rw [h]

/-- A step answers the state of its tick, at any choice of the parameters. -/
theorem stepIn_of_tickIn {p : Config.TickParams} {s t : State} {o : TickOutcome} (h : tickIn p s = .next (t, o)) :
    stepIn p s = .next t := by
  unfold stepIn
  rw [h]
  rfl

/-- A step answers the state of its tick. -/
theorem step_of_tick {s t : State} {o : TickOutcome} (h : tick s = .next (t, o)) : step s = .next t :=
  stepIn_of_tickIn h

@[simp] theorem run_zero (s : State) : Sys2Proof.core.run 0 s = .next s := rfl

theorem run_succ (n : Nat) (s : State) : Sys2Proof.core.run (n + 1) s =
    match step s with
    | .next t => Sys2Proof.core.run n t
    | .fault r => .fault r
    | .refused r => .refused r := by
  cases h : step s <;> simp only [Host.Core.run, show Sys2Proof.core.step s = step s from rfl, h]

/-- Induction along a run: a relation that every state bears to itself, and that survives one step put before it, holds
between the first and the last state of every run. -/
theorem run_relates {P : State → State → Prop} (hrefl : ∀ s, P s s)
    (hstep : ∀ s t u, step s = .next t → P t u → P s u) :
    ∀ (n : Nat) (s u : State), Sys2Proof.core.run n s = .next u → P s u := by
  intro n
  induction n with
  | zero =>
    intro s u h
    rw [run_zero] at h
    cases h
    exact hrefl s
  | succ n ih =>
    intro s u h
    rw [run_succ] at h
    cases hs : step s with
    | next t => rw [hs] at h; exact hstep s t u hs (ih t u h)
    | fault r => rw [hs] at h; cases h
    | refused r => rw [hs] at h; cases h

end Sys2Proof.Machine
end

