-- ==== Sys2Proof/Tests/Slice0.lean ====
section
/-! SUPPORT. The model's own tests. Expected results are the spec's: the vectors of 95_test_vectors.md (their ids in the
names or comments), the encodings of 30_encoding.md R91 and R95, and the examples of the rules. After them, one witness per
statement with hypotheses. -/

namespace Sys2Proof.Machine.Tests

/-- A state with PC and memory given and the rest as after reset. -/
def at_ (pc : Address) (cells : Memory) : State := { State.reset with pc := pc, mem := cells }

/-- The answer is a next state with this property. -/
def nextHas (r : Result) (p : State → Bool) : Bool :=
  match r with
  | .next t => p t
  | .fault _ => false
  | .refused _ => false

/-- The tick reports this outcome in a state with this property. -/
def tickHas (s : State) (o : TickOutcome) (p : State → Bool) : Bool :=
  match tick s with
  | .next q => q.2 == o && p q.1
  | .fault _ => false
  | .refused _ => false

/-! WellFormed: the one check, each way it refuses. -/

theorem test_wf_refuses_padding_as_unsupported : (Instr.unsupported 0x00).wf = false := by decide
theorem test_wf_refuses_opcode_as_unsupported : (Instr.unsupported 0xA9).wf = false := by decide
theorem test_wf_accepts_unsupported : (Instr.unsupported 0x60).wf = true := by decide

/-! The parameters of a tick (R6, R21): what R96 refuses, another opcode byte, a finite call stack. -/

theorem test_opcodes_refuse_duplicate : opcodesWf { defaultOpcodes with ldaImm := 0x10 } = false := by decide
theorem test_opcodes_refuse_padding_byte : opcodesWf { defaultOpcodes with ldaImm := 0x00 } = false := by decide

/-- OPC_LDA_IMM at 0x01, and a call stack of one entry. -/
def otherParams : Config.TickParams := { opcodes := { defaultOpcodes with ldaImm := 0x01 }, callStackDepth := some 1 }

theorem test_other_opcode_runs : nextHas (stepIn otherParams (at_ 0x8000 [(0x8000, 0x01), (0x8001, 0x42)]))
    (fun t => t.a == 0x42 && t.pc == 0x8002) = true := by decide
theorem test_other_opcode_frees_the_default : tickIn otherParams (at_ 0x8000 [(0x8000, 0xA9)]) =
    .next (at_ 0x8001 [(0x8000, 0xA9)], .unsupported 0xA9 0x8000 0) := by rfl
theorem test_push_with_room : stepIn otherParams (at_ 0x8000 [(0x8000, 0x20), (0x8001, 0x10)]) =
    .next { at_ 0x0010 [(0x8000, 0x20), (0x8001, 0x10)] with cs := [0x8003] } := by rfl
/-- R34, R236: a push always succeeds and no entry is lost, at the capacity too. -/
theorem test_push_at_capacity : stepIn otherParams { at_ 0x8000 [(0x8000, 0x20), (0x8001, 0x10)] with cs := [0x1234] } =
    .next { at_ 0x0010 [(0x8000, 0x20), (0x8001, 0x10)] with cs := [0x1234, 0x8003] } := by rfl

/-! Decode: every constructor by a word written out from R91 and R95. -/

theorem test_decode_bpl : decode [0x10, 0x05] = .ok (.bpl 0x05, []) := by decide
theorem test_decode_jsr : decode [0x20, 0x10, 0x80] = .ok (.jsr 0x8010, []) := by decide
theorem test_decode_bit : decode [0x2C, 0x01, 0x90] = .ok (.bitAbs 0x9001, []) := by decide
theorem test_decode_and : decode [0x29, 0x0F] = .ok (.andImm 0x0F, []) := by decide
theorem test_decode_jmp : decode [0x4C, 0x34, 0x12] = .ok (.jmpAbs 0x1234, []) := by decide
theorem test_decode_sei : decode [0x78] = .ok (.sei, []) := by decide
theorem test_decode_sta_zp : decode [0x85, 0x10] = .ok (.staZp 0x10, []) := by decide
theorem test_decode_stx_zp : decode [0x86, 0x21] = .ok (.stxZp 0x21, []) := by decide
theorem test_decode_dey : decode [0x88] = .ok (.dey, []) := by decide
theorem test_decode_sta_abs : decode [0x8D, 0x00, 0x02] = .ok (.staAbs 0x0200, []) := by decide
theorem test_decode_txs : decode [0x9A] = .ok (.txs, []) := by decide
theorem test_decode_ldy : decode [0xA0, 0x03] = .ok (.ldyImm 0x03, []) := by decide
theorem test_decode_ldx : decode [0xA2, 0xFF] = .ok (.ldxImm 0xFF, []) := by decide
theorem test_decode_lda : decode [0xA9, 0x8F] = .ok (.ldaImm 0x8F, []) := by decide
theorem test_decode_lda_abs : decode [0xAD, 0xFE, 0x90] = .ok (.ldaAbs 0x90FE, []) := by decide
theorem test_decode_lda_abs_x : decode [0xBD, 0x05, 0x90] = .ok (.ldaAbsX 0x9005, []) := by decide
theorem test_decode_lda_ind_y : decode [0xB1, 0x10] = .ok (.ldaIndY, [0x10]) := by decide
theorem test_decode_cld : decode [0xD8] = .ok (.cld, []) := by decide
theorem test_decode_nop : decode [0xEA, 0x78] = .ok (.nop, [0x78]) := by decide
theorem test_decode_beq : decode [0xF0, 0x82] = .ok (.beq 0x82, []) := by decide
theorem test_decode_pad : decode [0x00] = .ok (.pad, []) := by decide
theorem test_decode_unsupported : decode [0x6C, 0x34] = .ok (.unsupported 0x6C, [0x34]) := by decide
theorem test_decode_empty : decode [] = .error .noOpcodeByte := by decide
theorem test_decode_cut_short : decode [0x20, 0x10] = .error (.operandMissing 0x20) := by decide

set_option maxRecDepth 4000 in
/-- R98: 235 byte values are unsupported. -/
theorem test_unsupported_count :
    ((List.range 256).filter fun n => classify (BitVec.ofNat 8 n) == .unsupported (BitVec.ofNat 8 n)).length = 235 := by
  decide

theorem test_encode_jsr : encode (.jsr 0x8010) = [0x20, 0x10, 0x80] := by decide
theorem test_encode_beq : encode (.beq 0x82) = [0xF0, 0x82] := by decide

/-! Table words: the first and the longest formats, padding, bits above nbits. -/

theorem test_table_jsr : decodeTableWord 24 0x801020 = some (.jsr 0x8010) := by decide
theorem test_table_nop_ignores_high_bits : decodeTableWord 8 0x1234EA = some .nop := by decide
theorem test_table_pad : decodeTableWord 8 0 = some .pad := by decide
theorem test_table_short_word_has_zero_operand : decodeTableWord 8 0x4C = some (.jmpAbs 0x0000) := by decide

/-- A stored table word is the first instruction after reset. -/
theorem test_first_after_reset_lda : nextHas (step (State.reset.withFetchWord 16 0x80A9))
    (fun t => t.a == 0x80 && t.flagN && !t.flagZ && t.pc == 0x0002) = true := by decide
theorem test_first_after_reset_pad : nextHas (step (State.reset.withFetchWord 8 0)) (fun t => t.pc == 0xFFFF) = true := by
  decide

/-! Tick vectors T1 to T11. -/

theorem test_T1 : tickHas { at_ 0xFFFF [] with stall := true } .endOfMemory (fun t => t.pc == 0xFFFF && t.stall) = true := by
  decide
theorem test_T2 : tickHas { at_ 0x8000 [(0x8000, 0x78)] with stall := true } .stalled
    (fun t => t.pc == 0x8000 && !t.stall && !t.flagI) = true := by decide
theorem test_T3 : tickHas (at_ 0x8000 [(0x8003, 0x78)]) (.executed 0x78 0x8003 3)
    (fun t => t.pc == 0x8004 && t.flagI) = true := by decide
theorem test_T4 : tickHas (at_ 0x8000 [(0x8000, 0x60)]) (.unsupported 0x60 0x8000 0) (fun t => t.pc == 0x8001) = true := by
  decide
theorem test_T6 : tickHas (at_ 0xFFFE [(0xFFFF, 0xA9)]) (.skippedToEnd 1) (fun t => t.pc == 0xFFFF) = true := by decide
theorem test_T8 : tickHas (at_ 0xFFFE [(0xFFFE, 0xEA)]) (.executed 0xEA 0xFFFE 0)
    (fun t => t.pc == 0xFFFF && t.stall) = true := by decide
theorem test_T9 : tickHas (at_ 0xFFFE [(0xFFFE, 0xA9), (0xFFFF, 0x42)]) (.executed 0xA9 0xFFFE 0)
    (fun t => t.a == 0x42 && t.pc == 0x0000) = true := by decide
theorem test_T10 : tickHas (at_ 0xFFFE [(0x0000, 0x12), (0xFFFE, 0x4C), (0xFFFF, 0x34)]) (.executed 0x4C 0xFFFE 0)
    (fun t => t.pc == 0x1234) = true := by decide
theorem test_T11 : tickHas State.reset (.skippedToEnd 65535) (fun t => t.pc == 0xFFFF) = true := by decide

/-! Control transfer, vectors B2, B5, B6, B8, B9, B14, B15, B16, B17. -/

theorem test_B2_B5 : (nextHas (step { at_ 0x8000 [(0x8000, 0x10), (0x8001, 0x05)] with flagN := true })
      (fun t => t.pc == 0x8002)
    && nextHas (step (at_ 0x8000 [(0x8000, 0x10), (0x8001, 0xFF)])) (fun t => t.pc == 0x8100)) = true := by decide
theorem test_B6 : nextHas (step (at_ 0xFFF0 [(0xFFF0, 0x10), (0xFFF1, 0x20)])) (fun t => t.pc == 0x0011) = true := by decide
theorem test_B8_B9 : (nextHas (step { at_ 0x8000 [(0x8000, 0xF0), (0x8001, 0x82)] with flagZ := true })
      (fun t => t.pc == 0x8005)
    && nextHas (step (at_ 0x8000 [(0x8000, 0xF0), (0x8001, 0x82)])) (fun t => t.pc == 0x8002)) = true := by decide
theorem test_B14 : nextHas (step { at_ 0x0010 [(0x0010, 0xF0)] with flagZ := true }) (fun t => t.pc == 0xFF93) = true := by
  decide
theorem test_B15 : nextHas (step (at_ 0x8000 [(0x8000, 0x20), (0x8001, 0x10), (0x8002, 0x80)]))
    (fun t => t.pc == 0x8010 && t.cs == [0x8003] && t.sp == 0) = true := by decide
theorem test_B16 : nextHas (step (at_ 0xFFFD [(0xFFFD, 0x20), (0xFFFE, 0x34), (0xFFFF, 0x12)]))
    (fun t => t.pc == 0x1234 && t.cs == [0x0000]) = true := by decide
theorem test_B17 : nextHas (step (at_ 0x8000 [(0x8000, 0x4C), (0x8002, 0x80)])) (fun t => t.pc == 0x8000) = true := by decide

/-! Logic, vectors A2, A4, A9, A11, A12, A15 to A19. -/

theorem test_A2 : nextHas (step { at_ 0x8000 [(0x8000, 0x2C), (0x8002, 0x90), (0x9000, 0xC0)] with a := 0x03 })
    (fun t => t.flagN && t.flagV && t.flagZ && t.a == 0x03 && t.pc == 0x8003) = true := by decide
theorem test_A4 : nextHas (step { at_ 0x8000 [(0x8000, 0x2C), (0x8002, 0x90), (0x9000, 0x40)] with a := 0x40 })
    (fun t => !t.flagN && t.flagV && !t.flagZ) = true := by decide
theorem test_A9 : nextHas (step { at_ 0x8000 [(0x8000, 0x29), (0x8001, 0x0F)] with a := 0x8F })
    (fun t => t.a == 0x0F && !t.flagZ && !t.flagN && t.pc == 0x8002) = true := by decide
theorem test_A8 : nextHas (step { at_ 0x8000 [(0x8000, 0x29)] with a := 0x5A })
    (fun t => t.a == 0x00 && t.flagZ && !t.flagN && t.pc == 0x8002) = true := by decide
theorem test_A12 : nextHas (step (at_ 0x8000 [(0x8000, 0x88)]))
    (fun t => t.y == 0xFF && !t.flagZ && t.flagN && !t.flagC && !t.flagV && t.pc == 0x8001) = true := by decide
theorem test_A13 : nextHas (step { at_ 0x8000 [(0x8000, 0x88)] with y := 0x01 })
    (fun t => t.y == 0x00 && t.flagZ && !t.flagN) = true := by decide
theorem test_A16 : nextHas (step (at_ 0x8000 [(0x8000, 0x78)])) (fun t => t.flagI && t.pc == 0x8001) = true := by decide
theorem test_A17 : nextHas (step { at_ 0x8000 [(0x8000, 0xD8)] with flagD := true })
    (fun t => !t.flagD && t.pc == 0x8001) = true := by decide
theorem test_A18 : nextHas (step { at_ 0x8000 [(0x8000, 0x9A)] with x := 0xFF, sp := 0x12 })
    (fun t => t.cs == [0x00FF] && t.sp == 0x12 && t.x == 0xFF && t.pc == 0x8001) = true := by decide
theorem test_A19 : nextHas (step (at_ 0x8000 [(0x8000, 0xEA)])) (fun t => t.stall && t.pc == 0x8001) = true := by decide

/-! Loads and stores, vectors L1, L3, L5 to L10, L14 to L18. -/

theorem test_L1 : nextHas (step (at_ 0x8000 [(0x8000, 0xA9)])) (fun t => t.flagZ && !t.flagN && t.pc == 0x8002) = true := by
  decide
theorem test_L3 : nextHas (step (at_ 0x8000 [(0x8000, 0xA9), (0x8001, 0x80)]))
    (fun t => t.a == 0x80 && !t.flagZ && t.flagN) = true := by decide
theorem test_L5 : nextHas (step (at_ 0x8000 [(0x8000, 0xA2), (0x8001, 0xFF)]))
    (fun t => t.x == 0xFF && !t.flagZ && t.flagN && t.pc == 0x8002) = true := by decide
theorem test_L6 : nextHas (step { at_ 0x8000 [(0x8000, 0xA0)] with y := 0x05 })
    (fun t => t.y == 0x00 && t.flagZ && !t.flagN && t.pc == 0x8002) = true := by decide
theorem test_L7 : nextHas (step (at_ 0x8000 [(0x8000, 0xAD), (0x8002, 0x90), (0x9000, 0xFE)]))
    (fun t => t.a == 0xFE && !t.flagZ && t.flagN && t.pc == 0x8003) = true := by decide
theorem test_L9 : nextHas (step { at_ 0x8000 [(0x8000, 0xBD), (0x8002, 0x90), (0x9000, 0xFE), (0x9005, 0x77)] with x := 0x05 })
    (fun t => t.a == 0x03 && !t.flagZ && !t.flagN && t.pc == 0x8003) = true := by decide
theorem test_L10 : nextHas (step { at_ 0x8000 [(0x8000, 0xBD), (0x8002, 0x90), (0x9000, 0xFF)] with x := 0x01 })
    (fun t => t.a == 0x00 && t.flagZ && !t.flagN && !t.flagC) = true := by decide
theorem test_L14 : nextHas (step { at_ 0x8000 [(0x8000, 0x85), (0x8001, 0x10)] with a := 0x80 })
    (fun t => t.read 0x0010 == 0x80 && t.pc == 0x8002 && !t.flagN) = true := by decide
theorem test_L15 : nextHas (step { at_ 0x8000 [(0x8000, 0x86), (0x8001, 0x21)] with x := 0x05 })
    (fun t => t.read 0x0021 == 0x05 && t.pc == 0x8002) = true := by decide
theorem test_L16 : nextHas (step { at_ 0x8000 [(0x8000, 0x8D), (0x8002, 0x02)] with a := 0x0F })
    (fun t => t.read 0x0200 == 0x0F && t.pc == 0x8003) = true := by decide
theorem test_L17 : nextHas (step { at_ 0x8000 [(0x8000, 0x8D), (0x8001, 0x01), (0x8002, 0x80)] with a := 0xEE })
    (fun t => t.read 0x8001 == 0xEE && t.read 0x8000 == 0x8D && t.pc == 0x8003) = true := by decide
theorem test_L18 : tickHas { at_ 0x8000 [(0x8000, 0xB1), (0x8001, 0x10)] with a := 0x33, y := 0x04 }
    (.executed 0xB1 0x8000 0) (fun t => t.pc == 0x8001 && t.a == 0x33 && t.y == 0x04) = true := by decide

/-! Memory: the canonical form and the wrap of a two-byte read (R71). -/

theorem test_write_zero_lists_nothing : Memory.writeAt [(3, 0x05), (7, 0x01)] 3 0x00 = [(7, 0x01)] := by decide
theorem test_write_keeps_order : Memory.writeAt [(3, 0x05), (7, 0x01)] 5 0x09 = [(3, 0x05), (5, 0x09), (7, 0x01)] := by decide
theorem test_read_word_wraps : (at_ 0 [(0x0000, 0x12), (0xFFFF, 0x34)]).readWord 0xFFFF = 0x1234 := by decide
theorem test_wf_refuses_disorder : ¬ Memory.wf [(7, 0x01), (3, 0x05)] := by decide
theorem test_wf_refuses_fill : ¬ Memory.wf [(7, 0x00)] := by decide
theorem test_wf_refuses_outside : ¬ Memory.wf [(0x10000, 0x01)] := by decide

/-! The mapper. Short images, so the vectors' positions are scaled to what the copy rules say of them. -/

/-- An image with these banks. -/
def image (mapperId : Byte) (prg chr : List Byte) : CartridgeImage :=
  { CartridgeImage.empty with mapperId := mapperId, prg := prg, chr := chr }

/-- Zero reset values and the mode byte at PRG offset 0. -/
def params : Config.LoadParams := { reset := Config.zeroReset, mapper5ModeOffset := 0 }

theorem test_M3 : load params (image 0 [] []) = .next State.reset := rfl
theorem test_M8 : nextHas (load params (image 1 [0x00] [])) (fun _ => true) = false := by decide
theorem test_chr_over_zero_page : nextHas (load params (image 0 [0x78] [0x11, 0x22]))
    (fun t => t.read 0x0000 == 0x11 && t.read 0x0001 == 0x22 && t.read 0x8000 == 0x78 && t.read 0xC000 == 0x00) = true := by
  decide
theorem test_mapper5_places_no_chr : nextHas (load params (image 5 [0x00, 0x78] [0x11]))
    (fun t => t.read 0x0000 == 0x00 && t.read 0x8001 == 0x78) = true := by decide
theorem test_M6 : load params (image 5 [0x01] []) = .fault .unsupportedMapperMode := rfl
theorem test_image_wf_refuses_odd_prg : (image 0 [0x01] []).wf = false := by decide
theorem test_image_wf_refuses_odd_chr : (image 0 [] [0x01]).wf = false := by decide
theorem test_windows_do_not_overlap :
    List.Pairwise (fun v w : Window => v.base + v.size ≤ w.base ∨ w.base + w.size ≤ v.base) mapper0Windows := by decide

/-! The interface: a run's end (R224), a frame's ticks (R238), Observe (R8). -/

theorem test_run_ends : runToEnd defaultTickParams 5 (at_ 0x8000 [(0x8000, 0x4C), (0x8001, 0xFF), (0x8002, 0xFF)]) =
    .next (at_ 0xFFFF [(0x8000, 0x4C), (0x8001, 0xFF), (0x8002, 0xFF)], [.executed 0x4C 0x8000 0, .endOfMemory]) := by rfl
theorem test_frame_readings : ticksPerFrame true = 29831 ∧ ticksPerFrame false = 29830 := by decide
theorem test_observe : observe (at_ 0x8000 [(0x9000, 0xC0)]) (.mem 0x9000) = .byte 0xC0 := by decide

/-! Witnesses: for each statement of Certificates/Slice0/Obligations.lean with hypotheses, concrete data that meet them, one
for each clause, at the edges of its range. -/

/-- Every statement on a choice of OPC_* that R96 allows: the defaults, and another one. -/
theorem witness_opcodes : opcodesWf defaultTickParams.opcodes = true ∧ opcodesWf otherParams.opcodes = true := by decide

/-- `OpcodeByteSelectsTheArm`: each of the three hypotheses on the byte. -/
theorem witness_opcode_arms : (0x10 : Byte) = opcodeByteIn defaultOpcodes .bpl ∧
    (0x01 : Byte) = opcodeByteIn otherParams.opcodes .ldaImm ∧ (0x01 : Byte) ≠ 0x00 ∧
    (∀ m, (0x01 : Byte) ≠ opcodeByteIn defaultOpcodes m) ∧ ∀ m, (0xFF : Byte) ≠ opcodeByteIn defaultOpcodes m := by
  refine ⟨rfl, rfl, by decide, ?_, ?_⟩ <;> (intro m; cases m <;> decide)

/-- `DecodeOfEncodeIsTheInstruction`. -/
theorem witness_encode_well_formed : (Instr.unsupported 0xFF).wf = true ∧ (Instr.beq 0x00).wf = true ∧
    (Instr.unsupported 0xA9).wfIn otherParams.opcodes = true := by decide

/-- `EncodeOfDecodeIsTheBytes`: accepted, and rejected both ways. -/
theorem witness_decode_accepts_and_rejects : decode [0xA9, 0x00, 0x78] = .ok (.ldaImm 0x00, [0x78]) ∧
    decode [] = .error .noOpcodeByte ∧ decode [0x8D, 0x00] = .error (.operandMissing 0x8D) := by decide

/-- A state at the last address that is fetched from: NOP at 0xFFFE. -/
def topNop : State := at_ 0xFFFE [(0xFFFE, 0xEA)]

/-- A state with padding before an instruction. -/
def paddedSei : State := at_ 0x8000 [(0x8002, 0x78)]

/-- `StepRunsTheDecodedInstruction`, with an operand that wraps to 0x0000. -/
theorem witness_step_runs : (at_ 0xFFFE [(0x0000, 0x12), (0xFFFE, 0x4C), (0xFFFF, 0x34)]).Running ∧
    decode [(0x4C : Byte), 0x34, 0x12] = .ok (.jmpAbs 0x1234, []) ∧ (Instr.jmpAbs 0x1234).wf = true ∧
    exec (.jmpAbs 0x1234) (at_ 0xFFFF []) = .next (at_ 0x1234 []) := ⟨by decide, by decide, rfl, rfl⟩

/-- `StepRunsTheDecodedInstruction`, at other parameters. -/
theorem witness_step_runs_in : (at_ 0x8000 [(0x8000, 0x01), (0x8001, 0x42)]).Running ∧
    decodeIn otherParams.opcodes [(0x01 : Byte), 0x42, 0x00] = .ok (.ldaImm 0x42, [0x00]) ∧ Instr.ldaImm 0x42 ≠ .pad ∧
    execIn otherParams (.ldaImm 0x42) (at_ 0x8001 []) = .next { at_ 0x8002 [] with a := 0x42 } :=
  ⟨by decide, by decide, by decide, rfl⟩

/-- `StepRunsTheDecodedInstruction`, the report of an unsupported byte. -/
theorem witness_step_runs_unsupported : (at_ 0x8000 [(0x8000, 0x60)]).Running ∧
    decode [(0x60 : Byte), 0x00, 0x00] = .ok (.unsupported 0x60, [0x00, 0x00]) ∧ (Instr.unsupported 0x60).wf = true := by
  decide

/-- `TickSkipsPaddingThenFetches` and `UnsupportedByteIsReportedAndSteppedOver`: the skip that ends at 0xFFFF and the one
that does not. -/
theorem witness_padding : (at_ 0xFFFE []).Running ∧ exec .pad (at_ 0xFFFE []) = .next (at_ 0xFFFF []) ∧
    paddedSei.Running ∧ exec .pad paddedSei = .next { paddedSei with pc := 0x8002 } := ⟨by decide, rfl, by decide, rfl⟩

theorem witness_unsupported_byte : (at_ 0x8000 [(0x8001, 0x60)]).Running ∧
    exec .pad (at_ 0x8000 [(0x8001, 0x60)]) = .next (at_ 0x8001 [(0x8001, 0x60)]) ∧
    (∀ m, (at_ 0x8001 [(0x8001, 0x60)]).read 0x8001 ≠ opcodeByte m) :=
  ⟨by decide, rfl, by intro m; cases m <;> decide⟩

/-- `TickAtTopOfMemoryDoesNothing`, `TopOfMemoryIsAbsorbing`, `StalledTickOnlyClearsTheLatch`, and the first two clauses of
`TickOutcomeFollowsTheStepOrder`. -/
theorem witness_top_and_stall : (at_ 0xFFFF []).pc = 0xFFFF ∧
    ({ at_ 0xFFFE [] with stall := true } : State).pc ≠ 0xFFFF ∧ ({ at_ 0xFFFE [] with stall := true } : State).stall = true := by
  decide

/-- `TickOutcomeFollowsTheStepOrder`, third clause: all bytes from 0xFFFE up to 0xFFFF are zero. -/
theorem witness_outcome_skips_to_end : ∀ a : Address, (at_ 0xFFFE []).pc.toNat ≤ a.toNat → a.toNat < 0xFFFF →
    (at_ 0xFFFE []).read a = 0x00 := fun _ _ _ => rfl

/-- `TickOutcomeFollowsTheStepOrder`, last clause: the first byte that is not zero stands at 0xFFFE, the last address
fetched from, and is an opcode; or at PC itself, and is none. -/
theorem witness_outcome_fetches : topNop.pc.toNat ≤ (0xFFFE : Address).toNat ∧ (0xFFFE : Address).toNat < 0xFFFF ∧
    topNop.read 0xFFFE = opcodeByte .nop ∧ topNop.read 0xFFFE ≠ 0x00 ∧
    (∀ a : Address, topNop.pc.toNat ≤ a.toNat → a.toNat < (0xFFFE : Address).toNat → topNop.read a = 0x00) ∧
    ∀ m, (at_ 0x8000 [(0x8000, 0x01)]).read 0x8000 ≠ opcodeByte m := by
  refine ⟨by decide, by decide, by decide, by decide, fun a h1 h2 => ?_, by intro m; cases m <;> decide⟩
  have e : topNop.pc.toNat = (0xFFFE : Address).toNat := rfl
  omega

/-- `RunEndsAtTheFirstEndOfMemory`: a run that ends (`test_run_ends`) and one cut before its end. -/
theorem witness_run_cut : runToEnd defaultTickParams 1 (at_ 0x8000 [(0x8000, 0x4C)]) =
    .next (at_ 0x0000 [(0x8000, 0x4C)], [.executed 0x4C 0x8000 0]) := by rfl

/-- `StoredTableWordIsWhatStepRuns`: a word that is an instruction and one that is padding. -/
theorem witness_table_words : decodeTableWord 24 0x801020 = some (.jsr 0x8010) ∧ decodeTableWord 8 0x00 = some .pad := by decide

/-- `ControlTransfersFromTheOpcodeAddress`, `NopStallsOneTick` (both clauses), `IndirectLoadPlaceholderDoesNothing`. -/
theorem witness_ready : (at_ 0x8000 [(0x8000, 0x10)]).Ready .bpl ∧ (at_ 0x8000 [(0x8000, 0xF0)]).Ready .beq ∧
    (at_ 0x8000 [(0x8000, 0x4C)]).Ready .jmpAbs ∧ (at_ 0x8000 [(0x8000, 0x20)]).Ready .jsr ∧
    (at_ 0x8000 [(0x8000, 0xEA)]).Ready .nop ∧ (at_ 0x8000 [(0x8000, 0xEA)]).pc ≠ 0xFFFE ∧
    topNop.Ready .nop ∧ topNop.pc = 0xFFFE ∧ (at_ 0x8000 [(0x8000, 0xB1)]).Ready .ldaIndY := by decide

/-- `PcAdvancesByBytesConsumed` and the other statements on a ready state, at other parameters. -/
theorem witness_ready_in : (at_ 0x8000 [(0x8000, 0x01)]).ReadyIn otherParams.opcodes .ldaImm ∧
    (at_ 0x8000 [(0x8000, 0x20)]).ReadyIn otherParams.opcodes .jsr ∧
    (at_ 0x8000 [(0x8000, 0x4C), (0x8002, 0x80)]).ReadyIn otherParams.opcodes .jmpAbs ∧
    topNop.ReadyIn otherParams.opcodes .nop := by decide

/-- `OnlyJsrAndTxsPush`, `ParametersChangeOnlyOpcodesAndCapacity`: stacks with room, unbounded or not, one at its capacity,
and two choices of the parameters with the same opcode bytes. -/
theorem witness_capacity : (at_ 0 []).HasRoom defaultTickParams.callStackDepth ∧
    (at_ 0 []).HasRoom otherParams.callStackDepth ∧ otherParams.callStackDepth = some 1 ∧
    ¬ ({ at_ 0 [] with cs := [0x8003] } : State).HasRoom otherParams.callStackDepth ∧
    otherParams.opcodes = ({ otherParams with callStackDepth := some 0 } : Config.TickParams).opcodes ∧
    exec .txs (at_ 0 []) = .next { at_ 0 [] with cs := [0x0000] } :=
  ⟨by decide, by decide, by decide, by decide, rfl, rfl⟩

/-- `OnlyJsrAndTxsPush`: a step that fills the stack, and two ticks that push, the second past the capacity. -/
theorem witness_capacity_kept : otherParams.callStackDepth = some 1 ∧ (at_ 0x8000 [(0x8000, 0x9A)]).HasRoom (some 1) ∧
    stepIn otherParams (at_ 0x8000 [(0x8000, 0x9A)]) = .next { at_ 0x8001 [(0x8000, 0x9A)] with cs := [0x0000] } ∧
    frameAdvance otherParams 2 (at_ 0x8000 [(0x8000, 0x9A), (0x8001, 0x20)]) =
      .next ({ at_ 0x0000 [(0x8000, 0x9A), (0x8001, 0x20)] with cs := [0x0000, 0x8004] },
        [.executed 0x9A 0x8000 0, .executed 0x20 0x8001 0]) :=
  ⟨rfl, by decide, rfl, rfl⟩

/-- `UnreadStateNeverInfluencesARun`, `StepsKeepMemoryCanonical`, one step at other parameters: a stack at
its capacity and an empty one. -/
theorem witness_full_and_empty_stack :
    (at_ 0x8000 [(0x8000, 0x78)]).SameReadable { at_ 0x8000 [(0x8000, 0x78)] with cs := [0x8003] } ∧
    (at_ 0x8000 [(0x8000, 0x78)]).Inv ∧
    stepIn otherParams (at_ 0x8000 [(0x8000, 0x78)]) = .next { at_ 0x8001 [(0x8000, 0x78)] with flagI := true } :=
  ⟨by decide, by decide, rfl⟩

/-- `JmpSetsPcToItsOperand`: a jump to its own opcode, and one to 0xFFFF. -/
theorem witness_jump_loops_and_ends : (at_ 0x8000 [(0x8000, 0x4C), (0x8002, 0x80)]).Ready .jmpAbs ∧
    (at_ 0x8000 [(0x8000, 0x4C), (0x8002, 0x80)]).read 0x8002 ++ (at_ 0x8000 [(0x8000, 0x4C), (0x8002, 0x80)]).read 0x8001
      = (at_ 0x8000 [(0x8000, 0x4C), (0x8002, 0x80)]).pc ∧
    exec (.jmpAbs 0xFFFF) (at_ 0 []) = .next (at_ 0xFFFF []) := ⟨by decide, by decide, rfl⟩

/-- `SeiSetsInterruptDisable`, `CldClearsDecimal`: instructions that answer with I set before, and with D set after. -/
theorem witness_flags_kept : exec .sei { at_ 0 [] with flagI := true } = .next { at_ 0 [] with flagI := true } ∧
    exec .sei { at_ 0 [] with flagD := true } = .next { at_ 0 [] with flagD := true, flagI := true } := ⟨rfl, rfl⟩

/-- `NopStallsOneTick`: a tick that reports Executed. -/
theorem witness_nop_executed : tick topNop = .next ({ at_ 0xFFFF [(0xFFFE, 0xEA)] with stall := true }, .executed 0xEA 0xFFFE 0) :=
  rfl

/-- `BeqAddsItsOperandLessTheBias`: Z set and Z clear. -/
theorem witness_beq : ({ at_ 0 [] with flagZ := true } : State).flagZ = true ∧ (at_ 0 []).flagZ = false := ⟨rfl, rfl⟩

/-- `ZeroAndNegativeFollowTheResult`: an instruction of each clause answers a next state. -/
theorem witness_result_flags : exec (.ldaImm 0x80) (at_ 0 []) = .next { at_ 1 [] with a := 0x80, flagN := true } ∧
    exec (.ldxImm 0x00) (at_ 0 []) = .next { at_ 1 [] with flagZ := true } ∧
    exec .dey (at_ 0 []) = .next { at_ 0 [] with y := 0xFF, flagN := true } := ⟨rfl, rfl, rfl⟩

/-- `PcAdvancesByBytesConsumed`, with PC wrapping past the top. -/
theorem witness_pc_advances : (at_ 0xFFFE [(0xFFFE, 0xA9), (0xFFFF, 0x42)]).Ready .ldaImm ∧
    step (at_ 0xFFFE [(0xFFFE, 0xA9), (0xFFFF, 0x42)]) = .next { at_ 0x0000 [(0xFFFE, 0xA9), (0xFFFF, 0x42)] with a := 0x42 } :=
  ⟨by decide, rfl⟩

/-- `InstructionsWriteOnlyTheirElements`, `OnlyJsrAndTxsPush`: a store, and a byte beside the stored one. -/
theorem witness_frame : exec (.staZp 0x10) { at_ 0 [] with a := 0x80 } = .next { at_ 1 [(0x10, 0x80)] with a := 0x80 } ∧
    Element.mem 0x0011 ∉ writesOf (.staZp 0x10) ∧ Element.flagC ∉ writesOf (.staZp 0x10) := ⟨rfl, by decide, by decide⟩

/-- `InstructionsReadOnlyTheirElements`: two states that differ in SP and Y and agree on what AND reads. -/
theorem witness_readers : Instr.andImm 0x0F ≠ .pad ∧
    (∀ e ∈ readsOf (.andImm 0x0F), observe (at_ 0 []) e = observe { at_ 0 [] with sp := 0x01, y := 0x02 } e) ∧
    exec (.andImm 0x0F) (at_ 0 []) = .next { at_ 1 [] with flagZ := true } ∧
    exec (.andImm 0x0F) { at_ 0 [] with sp := 0x01, y := 0x02 } =
      .next { at_ 1 [] with sp := 0x01, y := 0x02, flagZ := true } := ⟨by decide, by decide, rfl, rfl⟩

/-- `RunsKeepUnwrittenState`, `UnreadStateNeverInfluencesARun`, `StepsKeepMemoryCanonical`: a run of two steps, and states
that differ only in what nothing reads. -/
theorem witness_runs : Sys2Proof.core.run 2 { at_ 0x8000 [(0x8000, 0xD8), (0x8001, 0x78)] with flagD := true } =
      .next { at_ 0x8002 [(0x8000, 0xD8), (0x8001, 0x78)] with flagI := true } ∧
    ({ at_ 0x8000 [(0x8000, 0xD8), (0x8001, 0x78)] with flagD := true } : State).SameReadable
      { at_ 0x8000 [(0x8000, 0xD8), (0x8001, 0x78)] with sp := 0x12, flagC := true, cs := [0x8003] } ∧
    (at_ 0x8000 [(0x8000, 0xD8), (0x8001, 0x78)]).Inv := ⟨rfl, by decide, by decide⟩

/-- `CanonicalMemoriesAreEqualWhenTheyReadEqual`, `WriteSetsOneLocation`: a canonical memory at both ends of the space, and
an address beside the one written. -/
theorem witness_canonical : Memory.wf [(0x0000, 0x01), (0xFFFF, 0xFF)] ∧ (0x0000 : Address) ≠ 0xFFFF := by decide

/-- `StoreIsSeenByTheNextFetch`: the state has an opcode byte in A, or zero, and stores it at 0xFFFE. -/
theorem witness_store_then_fetch : exec (.staAbs 0xFFFE) { at_ 0 [] with a := 0x78 } =
      .next { at_ 2 [(0xFFFE, 0x78)] with a := 0x78 } ∧
    ({ at_ 0 [] with a := 0x78 } : State).a = opcodeByte .sei ∧ ({ at_ 0 [] with a := 0x78 } : State).stall = false ∧
    ({ at_ 0 [] with a := 0x78 } : State).a = opcodeByteIn otherParams.opcodes .sei ∧
    (0xFFFE : Address) ≠ 0xFFFF ∧ (at_ 0 []).a = 0x00 ∧ exec (.staAbs 0xFFFE) (at_ 0 []) = .next (at_ 2 []) :=
  ⟨rfl, rfl, rfl, rfl, by decide, rfl, rfl⟩

/-- `MapperZeroAddressMap`, `SixteenKilobytePrgIsMirrored`, `ThirtyTwoKilobytePrgIsPlacedWhole`, and the mapper 0 clauses of
`ResetVectorComesFromThePrg`: images of each length, whose loads succeed by the first of these statements. -/
theorem witness_mapper0_images : (image 0 (List.replicate 16384 0x78) []).mapperId = 0 ∧
    (image 0 (List.replicate 16384 0x78) []).prg.length = 16384 ∧
    (image 0 (List.replicate 32768 0x78) []).prg.length = 32768 ∧ (image 0 [] []).prg.length = 0 :=
  ⟨rfl, List.length_replicate, List.length_replicate, rfl⟩

/-- `LoadedMemoryIsCanonical`, `LoadedStateIsAsResetSays`, `ResetVectorComesFromThePrg`: loads that succeed, of any PRG under
mapper 0, and under mapper 5 with a zero mode byte. -/
theorem witness_loads : (∀ prg, load params (image 0 prg []) =
      .next (initialState Config.zeroReset (mapper0Memory (image 0 prg [])))) ∧
    ∀ prg, load params (image 5 (0x00 :: prg) []) =
      .next (initialState Config.zeroReset (mapper5Memory (image 5 (0x00 :: prg) []))) := ⟨fun _ => rfl, fun _ => rfl⟩

/-- `MapperFiveModeZero`, and the mapper 5 clauses of `ResetVectorComesFromThePrg`: a zero mode byte, one that is not, a PRG
without the byte, and PRGs on both sides of the vector. -/
theorem witness_mapper5_images : (image 5 [0x00] []).mapperId = 5 ∧
    (image 5 [0x00] []).prg[params.mapper5ModeOffset]? = some 0x00 ∧
    (image 5 [0x01] []).prg[params.mapper5ModeOffset]? ≠ some 0x00 ∧
    (image 5 [] []).prg[params.mapper5ModeOffset]? ≠ some 0x00 ∧ (image 5 [0x00] []).prg.length ≤ 0x7FFC ∧
    32768 ≤ (image 5 (0x00 :: List.replicate 32767 0x78) []).prg.length := by
  refine ⟨rfl, rfl, by decide, by decide, by decide, ?_⟩
  show 32768 ≤ (0x00 :: List.replicate 32767 (0x78 : Byte)).length
  rw [List.length_cons, List.length_replicate]

/-- `OtherMappersAreRefused`, at the ids beside 0 and 5 and at the top. -/
theorem witness_other_mappers : (image 1 [] []).mapperId ≠ 0 ∧ (image 1 [] []).mapperId ≠ 5 ∧ (image 4 [] []).mapperId ≠ 5 ∧
    (image 6 [] []).mapperId ≠ 5 ∧ (image 255 [] []).mapperId ≠ 0 := by decide

/-- `ShortBufferIsInvalidRom`: one byte short, and just long enough. -/
theorem witness_buffer_lengths : 17 < 16 + (image 0 [0x01] [0x02]).prg.length + (image 0 [0x01] [0x02]).chr.length ∧
    16 + (image 0 [0x01] [0x02]).prg.length + (image 0 [0x01] [0x02]).chr.length ≤ 18 := by decide

end Sys2Proof.Machine.Tests
end

section
/-! The address space after a load: reads of placed banks, what the mapper answers for each mapper id, and the
statements on byte writes, the 16 KiB mirror and unsupported mappers (20_memory.md R60 to R64, R72). -/

namespace Sys2Proof.Machine

/-! Reads of banks placed one after another -/

/-- Outside the addresses of a placed bank the cells behind it answer. -/
theorem Memory.readAt_cellsFrom_append_of_outside {base a : Nat} {bs : List Byte} (m : Memory)
    (h : a < base ∨ base + bs.length ≤ a) : Memory.readAt (Memory.cellsFrom base bs ++ m) a = m.readAt a := by
  rw [Memory.readAt_append, if_neg]
  rintro ⟨c, hc, rfl⟩
  have := Memory.mem_cellsFrom hc
  omega

/-- A placed bank holds its bytes where the cells behind it hold nothing. A zero byte of the bank is not listed, so the
cells behind it answer there too: this is why they must hold nothing. -/
theorem Memory.readAt_cellsFrom_append_of_inside {base i : Nat} {bs : List Byte} {m : Memory} (h : i < bs.length)
    (hm : m.readAt (base + i) = Memory.fill) : Memory.readAt (Memory.cellsFrom base bs ++ m) (base + i) = bs[i] := by
  have hbank : (Memory.cellsFrom base bs).readAt (base + i) = bs[i] := by
    simp [Memory.readAt_cellsFrom, h]
  rw [Memory.readAt_append]
  split
  · exact hbank
  next habsent =>
    rw [hm, ← hbank]
    exact (Memory.readAt_of_absent fun c hc hca => habsent ⟨c, hc, hca⟩).symm

/-- Above its window CHR places nothing (R62). -/
theorem readAt_copyChr_append (chr : List Byte) (m : Memory) {a : Nat} (h : 0x2000 ≤ a) :
    Memory.readAt (copyChr chr ++ m) a = m.readAt a := by
  refine Memory.readAt_cellsFrom_append_of_outside m (.inr ?_)
  simp only [chrWindow, List.length_take]
  omega

/-! The mapper, by mapper id -/

@[simp] theorem initialState_mem (r : Config.ResetValues) (m : Memory) : (initialState r m).mem = m := rfl

/-- Mapper 0 loads every image (R58). -/
theorem load_mapper0 (p : Config.LoadParams) {img : CartridgeImage} (h : img.mapperId = 0) :
    load p img = .next (initialState p.reset (mapper0Memory img)) := by
  rw [load, buildMemory, if_pos h]

/-- A mapper id outside 0 and 5 builds no memory (R64). -/
theorem buildMemory_of_other_mapper (offset : Nat) {img : CartridgeImage} (h0 : img.mapperId ≠ 0)
    (h5 : img.mapperId ≠ 5) : buildMemory offset img = .error .unsupportedMapper := by
  unfold buildMemory
  rw [if_neg h0, if_neg h5]

/-- Under the mirror condition mapper 0 places the whole PRG twice, once per PRG window (R61, conflict C2). -/
theorem mapper0Memory_of_mirror {img : CartridgeImage} (h : img.prg.length = 16384) :
    mapper0Memory img =
      copyChr img.chr ++ (Memory.cellsFrom 0x8000 img.prg ++ Memory.cellsFrom 0xC000 img.prg) := by
  have hprg : img.prg.take 16384 = img.prg := List.take_of_length_le h.le
  simp [mapper0Memory, mapper0Windows, prgRamWindow, prgWindow0, prgWindow1, chrWindow, copyPrg, mirrorLength, h, hprg]

section
variable {img : CartridgeImage} {i : Nat}

/-- PRG window 0 holds the bank (R60). -/
theorem readAt_mapper0Memory_window0 (hlen : img.prg.length = 16384) (hi : i < img.prg.length) :
    (mapper0Memory img).readAt (0x8000 + i) = img.prg[i] := by
  have hwindow1 : (Memory.cellsFrom 0xC000 img.prg).readAt (0x8000 + i) = Memory.fill := by
    rw [Memory.readAt_cellsFrom, if_neg (by omega)]
  rw [mapper0Memory_of_mirror hlen, readAt_copyChr_append _ _ (by omega),
    Memory.readAt_cellsFrom_append_of_inside hi hwindow1]

/-- PRG window 1 holds the same bank (R61). -/
theorem readAt_mapper0Memory_window1 (hlen : img.prg.length = 16384) (hi : i < img.prg.length) :
    (mapper0Memory img).readAt (0xC000 + i) = img.prg[i] := by
  rw [mapper0Memory_of_mirror hlen, readAt_copyChr_append _ _ (by omega),
    Memory.readAt_cellsFrom_append_of_outside _ (.inr (by omega)), Memory.readAt_cellsFrom]
  simp [hi]

end

/-! The byte operations at an address given as a number -/

theorem State.read_ofNat (s : State) {n : Nat} (h : n < 0x10000) : s.read (BitVec.ofNat 16 n) = s.mem.readAt n := by
  rw [State.read, BitVec.toNat_ofNat, Nat.mod_eq_of_lt h]

/-- Addresses of the space given by different numbers are different. -/
theorem address_ofNat_ne {m n : Nat} (hm : m < 0x10000) (hn : n < 0x10000) (h : m ≠ n) :
    (BitVec.ofNat 16 m : Address) ≠ BitVec.ofNat 16 n := by
  intro he
  have := congrArg BitVec.toNat he
  simp only [BitVec.toNat_ofNat] at this
  omega

/-! The statements -/

/-- Settles O53: the two windows are copies of the bank, and window 1 lies at addresses a store into window 0 leaves. -/
theorem sixteenKilobytePrgIsMirrored : Obligations.SixteenKilobytePrgIsMirrored := by
  unfold Obligations.SixteenKilobytePrgIsMirrored
  intro p img h0 hlen
  refine ⟨_, load_mapper0 p h0, fun i hi => ?_⟩
  have hwindow1 : (initialState p.reset (mapper0Memory img)).read (BitVec.ofNat 16 (0xC000 + i)) = img.prg[i] := by
    rw [State.read_ofNat _ (by omega), initialState_mem, readAt_mapper0Memory_window1 hlen hi]
  refine ⟨?_, hwindow1, fun v => ?_⟩
  · rw [State.read_ofNat _ (by omega), initialState_mem, readAt_mapper0Memory_window0 hlen hi]
  · rw [State.read_write, if_neg (address_ofNat_ne (by omega) (by omega) (by omega)), hwindow1]

/-- Settles O49, from what a byte read answers after a byte write. -/
theorem writeSetsOneLocation : Obligations.WriteSetsOneLocation := by
  unfold Obligations.WriteSetsOneLocation
  intro s a v
  refine ⟨?_, fun b hb => ?_, rfl⟩
  · rw [State.read_write, if_pos rfl]
  · rw [State.read_write, if_neg hb]

/-- Settles O56: no memory is built, so the load answers the mapper's fault. -/
theorem otherMappersAreRefused : Obligations.OtherMappersAreRefused := by
  unfold Obligations.OtherMappersAreRefused
  intro p img h0 h5
  rw [load, buildMemory_of_other_mapper _ h0 h5]

end Sys2Proof.Machine
end

section
/-! The two functions of the opcode byte: the arm it selects and the length it tells (30_encoding.md R93, R94). -/

namespace Sys2Proof.Machine

/-! The twenty opcode bytes -/

@[simp] theorem mem_allMnemonics (m : Mnemonic) : m ∈ allMnemonics := by cases m <;> decide

section
variable {ops : Config.OpcodeMap}

/-- What `opcodesWf` says of any two mnemonics: the bytes are pairwise distinct (R96). -/
theorem opcodeByteIn_injective (h : opcodesWf ops = true) {m n : Mnemonic}
    (he : opcodeByteIn ops m = opcodeByteIn ops n) : m = n := by
  have hnodup : (allMnemonics.map (opcodeByteIn ops)).Nodup := by
    rw [opcodesWf, Bool.and_eq_true, decide_eq_true_eq] at h
    exact h.1
  exact List.inj_on_of_nodup_map hnodup (mem_allMnemonics m) (mem_allMnemonics n) he

/-- What `opcodesWf` says of each mnemonic: its byte is not the padding byte (R96). -/
theorem opcodeByteIn_ne_zero (h : opcodesWf ops = true) (m : Mnemonic) : opcodeByteIn ops m ≠ 0x00 := by
  rw [opcodesWf, Bool.and_eq_true, List.all_eq_true] at h
  simpa using h.2 m (mem_allMnemonics m)

/-! The arms of `classifyIn`, one equation each -/

@[simp] theorem classifyIn_zero (ops : Config.OpcodeMap) : classifyIn ops 0x00 = .padding := if_pos rfl

/-- The search of the table stops at the instruction whose byte it is, since no other instruction has that byte. -/
theorem classifyIn_opcodeByteIn (h : opcodesWf ops = true) (m : Mnemonic) :
    classifyIn ops (opcodeByteIn ops m) = .instr m := by
  rw [classifyIn, if_neg (opcodeByteIn_ne_zero h m)]
  cases hfind : allMnemonics.find? (fun n => opcodeByteIn ops n == opcodeByteIn ops m) with
  | none => simpa using List.find?_eq_none.mp hfind m (mem_allMnemonics m)
  | some n =>
    have hbyte : opcodeByteIn ops n = opcodeByteIn ops m := by simpa using List.find?_some hfind
    rw [opcodeByteIn_injective h hbyte]

/-- The default arm needs no condition on the opcode bytes. -/
theorem classifyIn_of_absent {b : Byte} (hzero : b ≠ 0x00) (habsent : ∀ m, b ≠ opcodeByteIn ops m) :
    classifyIn ops b = .unsupported b := by
  have hfind : allMnemonics.find? (fun m => opcodeByteIn ops m == b) = none :=
    List.find?_eq_none.mpr fun m _ => by simpa using (habsent m).symm
  rw [classifyIn, if_neg hzero, hfind]

end

/-! Lengths -/

/-- The operand bytes do not enter an instruction's length: it is that of its row's format (R91, R95). -/
@[simp] theorem instrLength_assemble (m : Mnemonic) (b1 b2 : Byte) :
    instrLength (assemble m b1 b2) = formatLength (formatOf m) := by cases m <;> rfl

/-- The length of the decoded word is the one the opcode byte tells. -/
@[simp] theorem instrLength_decodeWordIn (ops : Config.OpcodeMap) (b0 b1 b2 : Byte) :
    instrLength (decodeWordIn ops b0 b1 b2) = opcodeLengthIn ops b0 := by
  unfold decodeWordIn opcodeLengthIn
  cases classifyIn ops b0 with
  | padding => rfl
  | instr m => exact instrLength_assemble m b1 b2
  | unsupported b => rfl

/-! The statements -/

/-- Settles O1, one arm of R94 after the other. -/
theorem opcodeByteSelectsTheArm : Obligations.OpcodeByteSelectsTheArm := by
  unfold Obligations.OpcodeByteSelectsTheArm
  intro ops b h
  refine ⟨?_, ?_, classifyIn_of_absent⟩
  · rintro rfl
    exact classifyIn_zero ops
  · rintro m rfl
    exact classifyIn_opcodeByteIn h m

/-- Settles O3: the statement's right-hand side is the length that `opcodeLengthIn` tells. -/
theorem opcodeByteTellsTheLength : Obligations.OpcodeByteTellsTheLength := by
  unfold Obligations.OpcodeByteTellsTheLength
  intro ops b0 b1 b2
  exact instrLength_decodeWordIn ops b0 b1 b2

end Sys2Proof.Machine
end

section
/-! The steps that end a tick early, and the arm of a byte that is no opcode (40_fetch_decode.md R121, R122, R123, R126). -/

namespace Sys2Proof.Machine

/-! Steps 1 and 2 -/

/-- Step 1 comes first, whatever the latch (R121). -/
theorem tickIn_of_ended (p : Config.TickParams) {s : State} (h : s.Ended) : tickIn p s = .next (s, .endOfMemory) :=
  if_pos h

/-- Step 2 ends the tick before any byte is read (R122). -/
theorem tickIn_of_stalled (p : Config.TickParams) {s : State} (hpc : ¬ s.Ended) (hstall : s.stall = true) :
    tickIn p s = .next (s.setStall false, .stalled) := by
  rw [tickIn, if_neg hpc, if_pos hstall]

/-! Step 3 -/

theorem exec_pad (s : State) : exec .pad s = .next s.skipPadding := rfl

/-- The padding skip rests on a byte that is not zero, unless it has reached the end of memory (R123). -/
theorem State.skipPadding_read_ne_zero {s : State} (h : s.skipPadding.pc ≠ endOfMemory) :
    s.skipPadding.read s.skipPadding.pc ≠ 0x00 := by
  obtain ⟨-, -, hrest, -⟩ := Memory.paddingEnd_spec s.mem (show s.pc.toNat ≤ 0xFFFF by have := s.pc.isLt; omega)
  rw [← s.skipPadding_pc_toNat] at hrest
  exact hrest.resolve_left fun hend => h (BitVec.eq_of_toNat_eq hend)

/-! Steps 4 and 5, for a byte that is no opcode -/

theorem exec_unsupported (op : Byte) (s : State) : exec (.unsupported op) s = .next s := rfl

theorem execIn_unsupported (p : Config.TickParams) (op : Byte) (s : State) :
    execIn p (.unsupported op) s = .next s := rfl

theorem decodeWordIn_of_unsupported {ops : Config.OpcodeMap} {b : Byte} (h : classifyIn ops b = .unsupported b)
    (b1 b2 : Byte) : decodeWordIn ops b b1 b2 = .unsupported b := by
  rw [decodeWordIn, h]

theorem reportOf_of_unsupported {ops : Config.OpcodeMap} {b : Byte} (h : classifyIn ops b = .unsupported b)
    (opaddr : Address) (skips : Nat) : reportOf ops b opaddr skips = .unsupported b opaddr skips := by
  rw [reportOf, h]

/-- The fetch of an unsupported byte moves PC past it and does nothing else (R126). -/
theorem fetchAndDispatch_of_unsupported {p : Config.TickParams} {s : State}
    (h : classifyIn p.opcodes (s.read s.pc) = .unsupported (s.read s.pc)) (skips : Nat) :
    fetchAndDispatch p skips s = .next (s.advance 1, .unsupported (s.read s.pc) s.pc skips) := by
  have hexec : execIn p (s.instrAtPc p.opcodes) (s.advance 1) = .next (s.advance 1) := by
    rw [State.instrAtPc, decodeWordIn_of_unsupported h, execIn_unsupported]
  rw [fetchAndDispatch_next hexec, reportOf_of_unsupported h]

/-! The statements -/

/-- Settles O11: step 1 is the first test of a tick. -/
theorem tickAtTopOfMemoryDoesNothing : Obligations.TickAtTopOfMemoryDoesNothing := by
  unfold Obligations.TickAtTopOfMemoryDoesNothing
  intro p s hpc
  have htick : tick s = .next (s, .endOfMemory) := tickIn_of_ended _ hpc
  exact ⟨tickIn_of_ended p hpc, htick, step_of_tick htick⟩

/-- Settles O12: step 2 is the second test of a tick, and clearing the latch is all it does. -/
theorem stalledTickOnlyClearsTheLatch : Obligations.StalledTickOnlyClearsTheLatch := by
  unfold Obligations.StalledTickOnlyClearsTheLatch
  intro p s hpc hstall
  have htick : tick s = .next ({ s with stall := false }, .stalled) := tickIn_of_stalled _ hpc hstall
  exact ⟨tickIn_of_stalled p hpc hstall, htick, step_of_tick htick⟩

/-- Settles O15: the byte the padding skip rests on is not zero, so with no opcode equal to it the decoder answers
UNSUPPORTED. -/
theorem unsupportedByteIsReportedAndSteppedOver : Obligations.UnsupportedByteIsReportedAndSteppedOver := by
  unfold Obligations.UnsupportedByteIsReportedAndSteppedOver
  refine ⟨exec_unsupported, fun p s t hrun hpad hpc habsent => ?_⟩
  rw [exec_pad] at hpad
  cases hpad
  have hclass := classifyIn_of_absent (State.skipPadding_read_ne_zero hpc) habsent
  rw [tickIn_of_running p hrun, skipThenFetch_below_end p hpc, fetchAndDispatch_of_unsupported hclass]
  rfl

end Sys2Proof.Machine
end

section
/-! A tick from a state that is ready for an instruction, and JMP (40_fetch_decode.md R124, R125; 41_branch_jump.md R142). -/

namespace Sys2Proof.Machine

/-! Steps 3 to 5, for a byte that is an opcode -/

theorem opcodesWf_default : opcodesWf defaultOpcodes = true := by decide

section
variable {ops : Config.OpcodeMap} {p : Config.TickParams} {s t : State} {m : Mnemonic}

/-- The decoded word of an opcode byte is its row's instruction with its operand (R91, R94). -/
theorem decodeWordIn_opcodeByteIn (h : opcodesWf ops = true) (m : Mnemonic) (b1 b2 : Byte) :
    decodeWordIn ops (opcodeByteIn ops m) b1 b2 = assemble m b1 b2 := by
  rw [decodeWordIn, classifyIn_opcodeByteIn h]

theorem reportOf_opcodeByteIn (h : opcodesWf ops = true) (m : Mnemonic) (opaddr : Address) (skips : Nat) :
    reportOf ops (opcodeByteIn ops m) opaddr skips = .executed (opcodeByteIn ops m) opaddr skips := by
  rw [reportOf, classifyIn_opcodeByteIn h]

/-- An opcode byte is not zero, so a ready state has no padding to skip. -/
theorem State.ReadyIn.skipPadding_eq (h : opcodesWf ops = true) (hready : s.ReadyIn ops m) : s.skipPadding = s :=
  State.skipPadding_of_nonzero (hready.2 ▸ opcodeByteIn_ne_zero h m)

theorem State.ReadyIn.instrAtPc_eq (h : opcodesWf ops = true) (hready : s.ReadyIn ops m) :
    s.instrAtPc ops = assemble m (s.read (s.pc + 1)) (s.read (s.pc + 2)) := by
  rw [State.instrAtPc, hready.2, decodeWordIn_opcodeByteIn h]

/-- A tick from a ready state runs the instruction from the address after its opcode byte. -/
theorem tickIn_of_ready (h : opcodesWf p.opcodes = true) (hready : s.ReadyIn p.opcodes m)
    (hexec : execIn p (assemble m (s.read (s.pc + 1)) (s.read (s.pc + 2))) (s.advance 1) = .next t) :
    tickIn p s = .next (t, .executed (opcodeByteIn p.opcodes m) s.pc 0) := by
  have hskip : s.skipPadding = s := hready.skipPadding_eq h
  have hpc : s.skipPadding.pc ≠ endOfMemory := hskip.symm ▸ hready.1.1
  rw [← hready.instrAtPc_eq h] at hexec
  rw [tickIn_of_running p hready.1, skipThenFetch_below_end p hpc, hskip, fetchAndDispatch_next hexec, hready.2,
    reportOf_opcodeByteIn h, Nat.sub_self]

end

/-! JMP -/

theorem exec_jmpAbs (d16 : Address) (s : State) : exec (.jmpAbs d16) s = .next (s.setPc d16) := rfl

theorem execIn_jmpAbs (p : Config.TickParams) (d16 : Address) (s : State) :
    execIn p (.jmpAbs d16) s = .next (s.setPc d16) := rfl

@[simp] theorem State.setPc_self (s : State) : s.setPc s.pc = s := rfl

/-- In one tick JMP takes PC to its little-endian operand. -/
theorem stepIn_jmpAbs {p : Config.TickParams} {s : State} (h : opcodesWf p.opcodes = true)
    (hready : s.ReadyIn p.opcodes .jmpAbs) :
    stepIn p s = .next (s.setPc (s.read (s.pc + 2) ++ s.read (s.pc + 1))) :=
  stepIn_of_tickIn (tickIn_of_ready h hready (execIn_jmpAbs p _ _))

/-- A jump to its own opcode repeats (R142). -/
theorem stepIn_jmpAbs_self {p : Config.TickParams} {s : State} (h : opcodesWf p.opcodes = true)
    (hready : s.ReadyIn p.opcodes .jmpAbs) (hself : s.read (s.pc + 2) ++ s.read (s.pc + 1) = s.pc) :
    stepIn p s = .next s := by
  rw [stepIn_jmpAbs h hready, hself, State.setPc_self]

/-! The statement -/

/-- Settles O22: the format is R95's row, the operand and the effect are JMP's own, and the two special targets follow
from where one tick takes PC. -/
theorem jmpSetsPcToItsOperand : Obligations.JmpSetsPcToItsOperand := by
  unfold Obligations.JmpSetsPcToItsOperand
  refine ⟨rfl, rfl, fun ops h lo hi => decodeWordIn_opcodeByteIn h .jmpAbs lo hi, exec_jmpAbs,
    fun s => stepIn_jmpAbs_self (p := defaultTickParams) opcodesWf_default, fun p s => stepIn_jmpAbs_self,
    fun s t hexec => ?_⟩
  rw [exec_jmpAbs] at hexec
  cases hexec
  exact tickIn_of_ended _ (s.setPc_pc 0xFFFF)

end Sys2Proof.Machine
end

section
/-! The logic, flag and no-op instructions of one byte: SEI, DEY, CLD and NOP (42_logic_flag.md R152, R153, R155, R156),
and what the flags D and I have to do with any instruction. -/

namespace Sys2Proof.Machine

/-! What each of the four does -/

theorem exec_sei (s : State) : exec .sei s = .next (s.setFlagI true) := rfl

theorem exec_cld (s : State) : exec .cld s = .next (s.setFlagD false) := rfl

theorem exec_dey (s : State) : exec .dey s = .next ((s.setY (s.y - 1)).setZN (s.y - 1)) := rfl

theorem exec_nop (s : State) : exec .nop s = .next (s.setStall true) := rfl

theorem execIn_nop (p : Config.TickParams) (s : State) : execIn p .nop s = .next (s.setStall true) := rfl

/-! The flags D and I -/

/-- A branch moves PC and nothing else (R140). -/
theorem exec_bpl (d8 : Byte) (s : State) :
    exec (.bpl d8) s = .next (s.setPc (if s.flagN then s.pc + 1 else bplTarget s.pc d8)) := by
  change execBpl d8 s = _
  unfold execBpl
  split <;> rfl

/-- A branch moves PC and nothing else (R143). -/
theorem exec_beq (d8 : Byte) (s : State) :
    exec (.beq d8) s = .next (s.setPc (if s.flagZ then beqTarget s.pc d8 + 1 else s.pc + 1)) := by
  change execBeq d8 s = _
  unfold execBeq
  split <;> rfl

section
variable {i : Instr} {s t : State}

/-- No instruction reads D or I, only CLD writes D and only SEI writes I: started at other values of the two, an
instruction answers the same state but for the two themselves (R30). -/
theorem exec_setFlagD_setFlagI (h : exec i s = .next t) (d f : Bool) :
    exec i ((s.setFlagD d).setFlagI f) = .next ((t.setFlagD (i != .cld && d)).setFlagI (i == .sei || f)) := by
  cases i with
  | bpl d8 =>
    rw [exec_bpl] at h ⊢
    cases h
    rfl
  | beq d8 =>
    rw [exec_beq] at h ⊢
    cases h
    rfl
  | _ =>
    cases h
    rfl

/-- What D and I are after an instruction: the lemma above at the values they have. -/
theorem exec_setFlags_eq_self (h : exec i s = .next t) :
    (t.setFlagD (i != .cld && s.flagD)).setFlagI (i == .sei || s.flagI) = t :=
  Host.Outcome.next.inj ((exec_setFlagD_setFlagI h s.flagD s.flagI).symm.trans h)

theorem exec_flagD (h : exec i s = .next t) : t.flagD = (i != .cld && s.flagD) :=
  (congrArg State.flagD (exec_setFlags_eq_self h)).symm

theorem exec_flagI (h : exec i s = .next t) : t.flagI = (i == .sei || s.flagI) :=
  (congrArg State.flagI (exec_setFlags_eq_self h)).symm

/-- Whatever I holds, an instruction does the same to all else. -/
theorem exec_setFlagI (h : exec i s = .next t) (f : Bool) :
    exec i (s.setFlagI f) = .next (t.setFlagI (i == .sei || f)) := by
  have hother := exec_setFlagD_setFlagI h s.flagD f
  rw [← exec_flagD h] at hother
  exact hother

/-- Whatever D holds, an instruction does the same to all else. -/
theorem exec_setFlagD (h : exec i s = .next t) (d : Bool) :
    exec i (s.setFlagD d) = .next (t.setFlagD (i != .cld && d)) := by
  have hother := exec_setFlagD_setFlagI h d s.flagI
  rw [← exec_flagI h] at hother
  exact hother

end

/-! Z and N -/

/-- The two flags of a result byte in plain numbers (R29). -/
theorem State.setZN_eq (s : State) (v : Byte) :
    s.setZN v = { s with flagZ := decide (v = 0x00), flagN := decide (128 ≤ v.toNat) } := by
  rw [← bit7_eq]
  rfl

/-! The stall latch -/

section
variable {p : Config.TickParams} {s t : State}

theorem State.setStall_setStall_eq_self {f : Bool} (h : s.stall = f) (g : Bool) : (s.setStall g).setStall f = s := by
  subst h
  rfl

/-- A tick from a state with the latch set runs no instruction: step 1 or step 2 ends it (R121, R122). -/
theorem stall_of_tickIn_executed {op : Byte} {a : Address} {n : Nat}
    (h : tickIn p s = .next (t, .executed op a n)) : s.stall = false := by
  by_contra hstall
  rw [Bool.not_eq_false] at hstall
  by_cases hpc : s.Ended
  · rw [tickIn_of_ended p hpc] at h
    cases h
  · rw [tickIn_of_stalled p hpc hstall] at h
    cases h

/-- In one tick NOP moves PC past its opcode and sets the latch (R156). -/
theorem stepIn_nop (h : opcodesWf p.opcodes = true) (hready : s.ReadyIn p.opcodes .nop) :
    stepIn p s = .next ((s.advance 1).setStall true) :=
  stepIn_of_tickIn (tickIn_of_ready h hready (execIn_nop p _))

/-- The tick after a NOP that left PC below the end of memory clears the latch and does nothing else (R156). -/
theorem tickIn_setStall_true (p : Config.TickParams) (hpc : ¬ s.Ended) (hstall : s.stall = false) :
    tickIn p (s.setStall true) = .next (s, .stalled) := by
  rw [tickIn_of_stalled p (s := s.setStall true) hpc rfl, State.setStall_setStall_eq_self hstall]

/-- At the end of memory every further step is idle (R121, R129). -/
theorem run_of_ended (h : s.Ended) (n : Nat) : Sys2Proof.core.run n s = .next s := by
  induction n with
  | zero => exact run_zero s
  | succ n ih =>
    rw [run_succ, step_of_tick (tickIn_of_ended _ h)]
    exact ih

end

/-! The statements -/

/-- Settles O26: SEI is the only instruction that writes I, and none reads it. -/
theorem seiSetsInterruptDisable : Obligations.SeiSetsInterruptDisable := by
  unfold Obligations.SeiSetsInterruptDisable
  refine ⟨rfl, rfl, fun ops h => decodeWordIn_opcodeByteIn h .sei, exec_sei, fun i s t hexec hset => ?_,
    fun i s t f hexec => ⟨_, exec_setFlagI hexec f⟩⟩
  rw [exec_flagI hexec, hset, Bool.or_true]

/-- Settles O29: CLD is the only instruction that writes D, and none reads it. -/
theorem cldClearsDecimal : Obligations.CldClearsDecimal := by
  unfold Obligations.CldClearsDecimal
  refine ⟨rfl, rfl, fun ops h => decodeWordIn_opcodeByteIn h .cld, exec_cld, fun i s t hexec hset => ?_,
    fun i s t d hexec => ⟨_, exec_setFlagD hexec d⟩⟩
  rw [exec_flagD hexec] at hset
  exact Bool.and_elim_right hset

/-- Settles O27: the new Y in plain numbers, and Z and N of it. -/
theorem deyDecrementsY : Obligations.DeyDecrementsY := by
  unfold Obligations.DeyDecrementsY
  refine ⟨rfl, rfl, fun ops h => decodeWordIn_opcodeByteIn h .dey, fun s => ⟨_, exec_dey s, ?_, ?_⟩⟩
  · rw [State.setZN_y, State.setY_y, BitVec.toNat_sub, Nat.add_comm]
    rfl
  · exact State.setZN_eq _ _

/-- Settles O30: the tick that runs NOP, then the two ways the next tick can find the latch set. -/
theorem nopStallsOneTick : Obligations.NopStallsOneTick := by
  unfold Obligations.NopStallsOneTick
  refine ⟨rfl, rfl, fun ops h => decodeWordIn_opcodeByteIn h .nop, exec_nop,
    fun p s t op a n => stall_of_tickIn_executed, fun p s => stepIn_nop, fun s hready => ⟨?_, ?_, ?_⟩⟩
  · exact stepIn_nop (p := defaultTickParams) opcodesWf_default hready
  · intro hpc
    have hbelow : ¬ (s.advance 1).Ended := by
      change ¬ s.pc + 1 = 0xFFFF
      bv_omega
    exact tickIn_setStall_true defaultTickParams hbelow hready.1.2
  · intro hpc
    have hend : ((s.advance 1).setStall true).Ended := by
      change s.pc + 1 = 0xFFFF
      rw [hpc]
      rfl
    exact run_of_ended hend

end Sys2Proof.Machine
end

section
/-! The decoder undone: what each arm of `classifyIn` says of its byte, and the two directions of the round trip between
instructions and bytes (30_encoding.md R90 to R96). -/

namespace Sys2Proof.Machine

/-! The choice of OPC_* (R96) -/

/-- R96 in plain words; the check lists the twenty rows and this says it of every two mnemonics. -/
theorem opcodesWf_iff (ops : Config.OpcodeMap) : opcodesWf ops = true ↔
    (∀ m n, opcodeByteIn ops m = opcodeByteIn ops n → m = n) ∧ ∀ m, opcodeByteIn ops m ≠ 0x00 := by
  refine ⟨fun h => ⟨fun m n => opcodeByteIn_injective h, opcodeByteIn_ne_zero h⟩, fun ⟨hinj, hzero⟩ => ?_⟩
  have hnodup : (allMnemonics.map (opcodeByteIn ops)).Nodup :=
    List.Nodup.map (fun m n => hinj m n) (by decide)
  rw [opcodesWf, Bool.and_eq_true, decide_eq_true_eq, List.all_eq_true]
  exact ⟨hnodup, fun m _ => bne_iff_ne.mpr (hzero m)⟩

/-! The arms of `classifyIn`, read backwards; none needs a condition on the opcode bytes -/

section
variable {ops : Config.OpcodeMap} {b : Byte}

/-- Every byte takes one of the three arms of R94, and the arm says which byte it is. -/
theorem classifyIn_cases (ops : Config.OpcodeMap) (b : Byte) :
    (b = 0x00 ∧ classifyIn ops b = .padding) ∨
    (b ≠ 0x00 ∧ ∃ m, b = opcodeByteIn ops m ∧ classifyIn ops b = .instr m) ∨
    (b ≠ 0x00 ∧ (∀ m, b ≠ opcodeByteIn ops m) ∧ classifyIn ops b = .unsupported b) := by
  by_cases hzero : b = 0x00
  · subst hzero
    exact .inl ⟨rfl, classifyIn_zero ops⟩
  · right
    cases hfind : allMnemonics.find? (fun m => opcodeByteIn ops m == b) with
    | some m =>
      have hbyte : opcodeByteIn ops m = b := by simpa using List.find?_some hfind
      exact .inl ⟨hzero, m, hbyte.symm, by rw [classifyIn, if_neg hzero, hfind]⟩
    | none =>
      have habsent : ∀ m, b ≠ opcodeByteIn ops m := fun m he =>
        by simpa [he] using List.find?_eq_none.mp hfind m (mem_allMnemonics m)
      exact .inr ⟨hzero, habsent, classifyIn_of_absent hzero habsent⟩

/-- The decoded word by the arm its opcode byte takes. -/
theorem decodeWordIn_cases (ops : Config.OpcodeMap) (b b1 b2 : Byte) :
    (b = 0x00 ∧ decodeWordIn ops b b1 b2 = .pad) ∨
    (b ≠ 0x00 ∧ ∃ m, b = opcodeByteIn ops m ∧ classifyIn ops b = .instr m ∧
      decodeWordIn ops b b1 b2 = assemble m b1 b2) ∨
    (b ≠ 0x00 ∧ (∀ m, b ≠ opcodeByteIn ops m) ∧ classifyIn ops b = .unsupported b ∧
      decodeWordIn ops b b1 b2 = .unsupported b) := by
  unfold decodeWordIn
  rcases classifyIn_cases ops b with ⟨hb, hclass⟩ | ⟨hzero, m, hb, hclass⟩ | ⟨hzero, habsent, hclass⟩
  · exact .inl ⟨hb, by rw [hclass]⟩
  · exact .inr (.inl ⟨hzero, m, hb, hclass, by rw [hclass]⟩)
  · exact .inr (.inr ⟨hzero, habsent, hclass, by rw [hclass]⟩)

theorem assemble_ne_pad (m : Mnemonic) (b1 b2 : Byte) : assemble m b1 b2 ≠ .pad := by cases m <;> nofun

theorem assemble_ne_unsupported (m : Mnemonic) (b1 b2 op : Byte) : assemble m b1 b2 ≠ .unsupported op := by
  cases m <;> nofun

/-- The decoder answers PAD for the padding byte only (R97). -/
theorem decodeWordIn_eq_pad_iff {b1 b2 : Byte} : decodeWordIn ops b b1 b2 = .pad ↔ b = 0x00 := by
  rcases decodeWordIn_cases ops b b1 b2 with ⟨hb, hword⟩ | ⟨hzero, m, -, -, hword⟩ | ⟨hzero, -, -, hword⟩
  · exact iff_of_true hword hb
  · exact iff_of_false (hword ▸ assemble_ne_pad m b1 b2) hzero
  · exact iff_of_false (hword ▸ nofun) hzero

/-- An UNSUPPORTED is well formed when its byte takes no other arm (R94, R98). -/
theorem wfIn_unsupported_iff {op : Byte} :
    (Instr.unsupported op).wfIn ops = true ↔ op ≠ 0x00 ∧ ∀ m, op ≠ opcodeByteIn ops m := by
  simp [Instr.wfIn, @eq_comm Byte op]

end

/-! Encoding after decoding -/

section
variable {ops : Config.OpcodeMap}

/-- An instruction of a row of R95 encodes to its opcode byte and as much of its operand as its format has (R91). -/
theorem encodeIn_assemble (ops : Config.OpcodeMap) (m : Mnemonic) (b1 b2 : Byte) :
    encodeIn ops (assemble m b1 b2) = opcodeByteIn ops m :: [b1, b2].take (formatLength (formatOf m) - 1) := by
  cases m <;> simp [assemble, encodeIn, encode8, encode16, formatOf, formatLength]

theorem wfIn_assemble (ops : Config.OpcodeMap) (m : Mnemonic) (b1 b2 : Byte) : (assemble m b1 b2).wfIn ops = true := by
  cases m <;> rfl

theorem formatLength_bounds (f : Format) : 1 ≤ formatLength f ∧ formatLength f ≤ 3 := by cases f <;> decide

/-- The decoder looks at the first two bytes after the opcode byte; of these the first `k` and the list past them are
the list. -/
theorem take_operands_append_drop {k : Nat} {bytes : List Byte} (hk : k ≤ 2) (hlen : k ≤ bytes.length) :
    [bytes.getD 0 0, bytes.getD 1 0].take k ++ bytes.drop k = bytes := by
  match bytes, k with
  | _, 0 => rfl
  | b1 :: rest, 1 => rfl
  | b1 :: b2 :: rest, 2 => rfl

theorem opcodeLengthIn_of_instr {b : Byte} {m : Mnemonic} (h : classifyIn ops b = .instr m) :
    opcodeLengthIn ops b = formatLength (formatOf m) := by
  rw [opcodeLengthIn, h]

theorem decodeIn_cons (ops : Config.OpcodeMap) (b : Byte) (bytes : List Byte) :
    decodeIn ops (b :: bytes) =
      if bytes.length + 1 < opcodeLengthIn ops b then .error (.operandMissing b)
      else .ok (decodeWordIn ops b (bytes.getD 0 0) (bytes.getD 1 0), bytes.drop (opcodeLengthIn ops b - 1)) := rfl

/-- What the decoder accepts: a list with an opcode byte and the operand its format asks for. -/
theorem decodeIn_eq_ok {bytes rest : List Byte} {i : Instr} (h : decodeIn ops bytes = .ok (i, rest)) :
    ∃ b more, bytes = b :: more ∧ opcodeLengthIn ops b ≤ more.length + 1 ∧
      i = decodeWordIn ops b (more.getD 0 0) (more.getD 1 0) ∧ rest = more.drop (opcodeLengthIn ops b - 1) := by
  cases bytes with
  | nil => cases h
  | cons b more =>
    rw [decodeIn_cons] at h
    split at h
    · cases h
    next hlen =>
      cases h
      exact ⟨b, more, rfl, not_lt.mp hlen, rfl, rfl⟩

/-- What the decoder rejects: no byte at all, or an operand cut short. -/
theorem decodeIn_eq_error {bytes : List Byte} {e : DecodeReject} (h : decodeIn ops bytes = .error e) :
    bytes = [] ∨ ∃ b more, bytes = b :: more ∧ bytes.length < opcodeLengthIn ops b := by
  cases bytes with
  | nil => exact .inl rfl
  | cons b more =>
    rw [decodeIn_cons] at h
    split at h
    next hlen => exact .inr ⟨b, more, rfl, hlen⟩
    · cases h

/-- What decodes is well formed and encodes to the bytes consumed. -/
theorem encodeIn_of_decodeIn {bytes rest : List Byte} {i : Instr} (h : decodeIn ops bytes = .ok (i, rest)) :
    i.wfIn ops = true ∧ encodeIn ops i ++ rest = bytes := by
  obtain ⟨b, more, rfl, hlen, rfl, rfl⟩ := decodeIn_eq_ok h
  rcases decodeWordIn_cases ops b (more.getD 0 0) (more.getD 1 0) with
    ⟨rfl, hword⟩ | ⟨-, m, hb, hclass, hword⟩ | ⟨hzero, habsent, hclass, hword⟩
  · rw [hword, opcodeLengthIn, classifyIn_zero]
    exact ⟨rfl, rfl⟩
  · rw [opcodeLengthIn_of_instr hclass] at hlen ⊢
    have hbounds := formatLength_bounds (formatOf m)
    rw [hword, encodeIn_assemble, ← hb, List.cons_append, take_operands_append_drop (by omega) (by omega)]
    exact ⟨wfIn_assemble ops m _ _, rfl⟩
  · rw [hword, opcodeLengthIn, hclass]
    exact ⟨wfIn_unsupported_iff.mpr ⟨hzero, habsent⟩, rfl⟩

/-! Decoding after encoding -/

/-- The decoder on an opcode byte: the row's format says how much is consumed (R91, R93). -/
theorem decodeIn_opcodeByteIn (h : opcodesWf ops = true) (m : Mnemonic) (bytes : List Byte) :
    decodeIn ops (opcodeByteIn ops m :: bytes) =
      if bytes.length + 1 < formatLength (formatOf m) then .error (.operandMissing (opcodeByteIn ops m))
      else .ok (assemble m (bytes.getD 0 0) (bytes.getD 1 0), bytes.drop (formatLength (formatOf m) - 1)) := by
  rw [decodeIn_cons, decodeWordIn_opcodeByteIn h, opcodeLengthIn_of_instr (classifyIn_opcodeByteIn h m)]

/-- Every well-formed instruction with any operand is read back from its encoding (R90, R91). -/
theorem decodeIn_encodeIn (h : opcodesWf ops = true) {i : Instr} (hwf : i.wfIn ops = true) (rest : List Byte) :
    decodeIn ops (encodeIn ops i ++ rest) = .ok (i, rest) := by
  cases i with
  | pad =>
    change decodeIn ops (0x00 :: rest) = _
    rw [decodeIn_cons, decodeWordIn, opcodeLengthIn, classifyIn_zero]
    exact if_neg (by simp)
  | unsupported op =>
    obtain ⟨hzero, habsent⟩ := wfIn_unsupported_iff.mp hwf
    have hclass := classifyIn_of_absent hzero habsent
    change decodeIn ops (op :: rest) = _
    rw [decodeIn_cons, decodeWordIn_of_unsupported hclass, opcodeLengthIn, hclass]
    exact if_neg (by simp)
  | _ => simp [encodeIn, encode8, encode16, decodeIn_opcodeByteIn h, formatOf, formatLength, assemble]

end

/-! The statements -/

/-- Settles O2: the check on a choice is R96, and the defaults pass it. -/
theorem opcodeBytesAreDistinct : Obligations.OpcodeBytesAreDistinct := by
  unfold Obligations.OpcodeBytesAreDistinct
  exact ⟨opcodesWf_iff, (opcodesWf_iff defaultOpcodes).mp opcodesWf_default⟩

/-- Settles O4: the decoder evaluated on each word. -/
theorem specWordsDecode : Obligations.SpecWordsDecode := by
  unfold Obligations.SpecWordsDecode
  and_intros <;> decide

/-- Settles O5, by cases on the instruction: PAD and UNSUPPORTED by their own arms, every other by its row. -/
theorem decodeOfEncodeIsTheInstruction : Obligations.DecodeOfEncodeIsTheInstruction := by
  unfold Obligations.DecodeOfEncodeIsTheInstruction
  exact ⟨fun ops i rest h hwf => decodeIn_encodeIn h hwf rest,
    fun i rest hwf => decodeIn_encodeIn opcodesWf_default hwf rest⟩

/-- Settles O6, by the arm that the first byte takes. -/
theorem encodeOfDecodeIsTheBytes : Obligations.EncodeOfDecodeIsTheBytes := by
  unfold Obligations.EncodeOfDecodeIsTheBytes
  exact ⟨fun ops bytes i rest => encodeIn_of_decodeIn, fun ops bytes e => decodeIn_eq_error,
    fun bytes => rfl, fun i => ⟨rfl, rfl⟩⟩

end Sys2Proof.Machine
end

section
/-! What each instruction does to the state: one equation per constructor of `Instr` (41_branch_jump.md R140 to R143,
42_logic_flag.md R150 to R156, 43_load_store.md R170 to R178), and the statements on single instructions. -/

namespace Sys2Proof.Machine

/-! The equations that the earlier sections do not have -/

section
variable (d8 : Byte) (d16 : Address) (s : State)

theorem exec_jsr : exec (.jsr d16) s = .next ((s.push (s.pc + 2)).setPc d16) := rfl

theorem exec_txs : exec .txs s = .next (s.push (s.x.setWidth 16)) := rfl

theorem exec_bitAbs : exec (.bitAbs d16) s = .next ((s.setBitTest (s.read d16)).advance 2) := rfl

theorem exec_andImm : exec (.andImm d8) s = .next ((s.loadA (s.a &&& d8)).advance 1) := rfl

theorem exec_staZp : exec (.staZp d8) s = .next ((s.write (zeroPageAddress d8) s.a).advance 1) := rfl

theorem exec_stxZp : exec (.stxZp d8) s = .next ((s.write (zeroPageAddress d8) s.x).advance 1) := rfl

theorem exec_staAbs : exec (.staAbs d16) s = .next ((s.write d16 s.a).advance 2) := rfl

theorem exec_ldyImm : exec (.ldyImm d8) s = .next (((s.setY d8).setZN d8).advance 1) := rfl

theorem exec_ldxImm : exec (.ldxImm d8) s = .next (((s.setX d8).setZN d8).advance 1) := rfl

theorem exec_ldaImm : exec (.ldaImm d8) s = .next ((s.loadA d8).advance 1) := rfl

theorem exec_ldaAbs : exec (.ldaAbs d16) s = .next ((s.loadA (s.read d16)).advance 2) := rfl

theorem exec_ldaAbsX : exec (.ldaAbsX d16) s = .next ((s.loadA (s.read d16 + s.x)).advance 2) := rfl

theorem exec_ldaIndY : exec .ldaIndY s = .next s := rfl

end

/-- An instruction does at any parameters what it does at the defaults: the capacity decides nothing a push does (R34). -/
theorem execIn_eq_exec (p : Config.TickParams) (i : Instr) (s : State) : execIn p i s = exec i s := by cases i <;> rfl

/-- No instruction, PAD and UNSUPPORTED included, faults or is refused (R193). -/
theorem exec_total (i : Instr) (s : State) : ∃ t, exec i s = .next t := by
  cases i with
  | bpl d8 => exact ⟨_, exec_bpl d8 s⟩
  | beq d8 => exact ⟨_, exec_beq d8 s⟩
  | _ => exact ⟨_, rfl⟩

/-! Flags and byte order in plain numbers -/

/-- R29, as the statements of the loads write it. -/
theorem State.setZN_eq_toNat (s : State) (v : Byte) :
    s.setZN v = { s with flagZ := decide (v.toNat = 0), flagN := decide (128 ≤ v.toNat) } := by
  rw [← isZero_eq, ← bit7_eq]
  rfl

theorem isZero_eq_true_iff (v : Byte) : isZero v = true ↔ v.toNat = 0 := by rw [isZero_eq, decide_eq_true_eq]

theorem bit7_eq_true_iff (v : Byte) : bit7 v = true ↔ 128 ≤ v.toNat := by rw [bit7_eq, decide_eq_true_eq]

/-! The statements on control transfer -/

/-- Settles O19: the two arms of the branch in plain numbers. -/
theorem bplAddsItsOperandUnsigned : Obligations.BplAddsItsOperandUnsigned := by
  unfold Obligations.BplAddsItsOperandUnsigned
  intro d8 s
  have hpc : (if s.flagN then s.pc + 1 else bplTarget s.pc d8) =
      BitVec.ofNat 16 (s.pc.toNat + if s.flagN = false then d8.toNat else 1) := by
    apply BitVec.eq_of_toNat_eq
    cases s.flagN
    · exact bplTarget_toNat s.pc d8
    · exact BitVec.toNat_add s.pc 1
  rw [exec_bpl, hpc]
  rfl

/-- Settles O20: the biased sum and then the increment, as one integer. -/
theorem beqAddsItsOperandLessTheBias : Obligations.BeqAddsItsOperandLessTheBias := by
  unfold Obligations.BeqAddsItsOperandLessTheBias
  intro d8 s
  refine ⟨_, exec_beq d8 s, rfl, fun hz => ?_, fun hz => ?_⟩
  · have htarget := beqTarget_toNat s.pc d8
    have hone : (1 : Address).toNat = 1 := rfl
    rw [State.setPc_pc, if_pos hz, BitVec.toNat_add]
    omega
  · rw [State.setPc_pc, hz, if_neg Bool.false_ne_true, BitVec.toNat_add]
    rfl

/-- Settles O21: the push and the jump, at any capacity by `execIn_eq_exec`. -/
theorem jsrPushesThenJumps : Obligations.JsrPushesThenJumps := by
  unfold Obligations.JsrPushesThenJumps
  intro d16 s
  have hentry : BitVec.ofNat 16 (s.pc.toNat + 2) = s.pc + 2 := BitVec.eq_of_toNat_eq (BitVec.toNat_add s.pc 2).symm
  rw [hentry]
  exact ⟨exec_jsr d16 s, fun p => (execIn_eq_exec p _ s).trans (exec_jsr d16 s)⟩

/-! The statements on logic and registers -/

/-- Settles O24: bits 7 and 6 of the byte in plain numbers. -/
theorem bitTestCopiesMemoryBits : Obligations.BitTestCopiesMemoryBits := by
  unfold Obligations.BitTestCopiesMemoryBits
  intro d16 s
  rw [exec_bitAbs, ← bit7_eq, ← bit6_eq]
  rfl

/-- Settles O25: the new A bit by bit, and Z and N of it. -/
theorem andMasksA : Obligations.AndMasksA := by
  unfold Obligations.AndMasksA
  intro d8 s
  refine ⟨_, exec_andImm d8 s, fun k => BitVec.getLsbD_and, ?_⟩
  rw [State.loadA, State.setZN_eq]
  rfl

/-- Settles O28: the entry is X zero-extended, so it has X's value. -/
theorem txsPushesXAndLeavesSp : Obligations.TxsPushesXAndLeavesSp := by
  unfold Obligations.TxsPushesXAndLeavesSp
  intro s
  exact ⟨s.x.setWidth 16, exec_txs s, zeroPageAddress_toNat s.x, fun p => (execIn_eq_exec p _ s).trans (exec_txs s)⟩

/-- Settles O31: each of the seven instructions writes a register and sets Z and N of the byte it wrote there. -/
theorem zeroAndNegativeFollowTheResult : Obligations.ZeroAndNegativeFollowTheResult := by
  unfold Obligations.ZeroAndNegativeFollowTheResult
  refine ⟨fun i s t hexec hi => ?_, fun d8 s t hexec => ?_, fun i s t hexec hi => ?_⟩
  · rcases hi with ⟨d, rfl⟩ | ⟨d, rfl⟩ | ⟨d, rfl⟩ | ⟨d, rfl⟩ <;>
      (cases hexec; exact ⟨isZero_eq_true_iff _, bit7_eq_true_iff _⟩)
  · cases hexec
    exact ⟨isZero_eq_true_iff _, bit7_eq_true_iff _⟩
  · rcases hi with rfl | ⟨d, rfl⟩ <;> (cases hexec; exact ⟨isZero_eq_true_iff _, bit7_eq_true_iff _⟩)

/-! The statements on loads and stores -/

/-- A byte stored, and PC moved on: what is read afterwards (R72). -/
theorem State.read_advance_write (s : State) (n a : Address) (v : Byte) :
    ((s.write a v).advance n).read a = v ∧ ∀ b, b ≠ a → ((s.write a v).advance n).read b = s.read b := by
  refine ⟨?_, fun b hb => ?_⟩
  · rw [State.advance_read, State.read_write, if_pos rfl]
  · rw [State.advance_read, State.read_write, if_neg hb]

/-- Settles O32: the zero-page address is the operand's value, and each store is one byte write. -/
theorem zeroPageStoresWriteOneByte : Obligations.ZeroPageStoresWriteOneByte := by
  unfold Obligations.ZeroPageStoresWriteOneByte
  intro d8 s
  exact ⟨zeroPageAddress_toNat d8, ⟨_, exec_staZp d8 s, rfl, s.read_advance_write 1 _ s.a⟩,
    ⟨_, exec_stxZp d8 s, rfl, s.read_advance_write 1 _ s.x⟩⟩

/-- Settles O33: the store is one byte write. -/
theorem absoluteStoreWritesOneByte : Obligations.AbsoluteStoreWritesOneByte := by
  unfold Obligations.AbsoluteStoreWritesOneByte
  intro d16 s
  exact ⟨_, exec_staAbs d16 s, rfl, s.read_advance_write 2 d16 s.a⟩

/-- Settles O34: each load sets its register and Z and N of the operand. -/
theorem immediateLoadsWriteTheirRegister : Obligations.ImmediateLoadsWriteTheirRegister := by
  unfold Obligations.ImmediateLoadsWriteTheirRegister
  intro d8 s
  refine ⟨?_, ?_, ?_⟩
  · rw [exec_ldyImm, State.setZN_eq_toNat]
    rfl
  · rw [exec_ldxImm, State.setZN_eq_toNat]
    rfl
  · rw [exec_ldaImm, State.loadA, State.setZN_eq_toNat]
    rfl

/-- Settles O35: A is the byte read, with its Z and N. -/
theorem absoluteLoadReadsTheOperandAddress : Obligations.AbsoluteLoadReadsTheOperandAddress := by
  unfold Obligations.AbsoluteLoadReadsTheOperandAddress
  intro d16 s
  rw [exec_ldaAbs, State.loadA, State.setZN_eq_toNat]
  rfl

/-- Settles O36: A is the 8-bit sum, with its Z and N. -/
theorem indexedLoadAddsXToTheData : Obligations.IndexedLoadAddsXToTheData := by
  unfold Obligations.IndexedLoadAddsXToTheData
  intro d16 s
  refine ⟨_, exec_ldaAbsX d16 s, BitVec.toNat_add _ _, ?_⟩
  rw [State.loadA, State.setZN_eq_toNat]
  rfl

end Sys2Proof.Machine
end

section
/-! The padding skip: where it comes to rest, and that it is the spec's loop (40_fetch_decode.md R123, R128). -/

namespace Sys2Proof.Machine

/-- Where a padding run ends is determined by what `Memory.paddingEnd_spec` says of it. -/
theorem Memory.paddingEnd_eq {m : Memory} {start e : Nat} (hle : start ≤ e) (hmax : e ≤ 0xFFFF)
    (hrest : e = 0xFFFF ∨ m.readAt e ≠ 0x00) (hzero : ∀ a, start ≤ a → a < e → m.readAt a = 0x00) :
    m.paddingEnd start = e := by
  obtain ⟨hstart, htop, hstop, hrun⟩ := m.paddingEnd_spec (hle.trans hmax)
  rcases Nat.lt_trichotomy (m.paddingEnd start) e with hlt | heq | hgt
  · exact absurd (hzero _ hstart hlt) (hstop.resolve_left (by omega))
  · exact heq
  · exact absurd (hrun e hle hgt) (hrest.resolve_left (by omega))

theorem Address.toNat_le_top (a : Address) : a.toNat ≤ 0xFFFF := Nat.le_of_lt_succ a.isLt

section
variable (s : State)

/-- The skip passes zero bytes only and rests at the end of memory or on a byte that is not zero (R123). -/
theorem State.skipPadding_spec : s.pc.toNat ≤ s.skipPadding.pc.toNat ∧
    (∀ a : Address, s.pc.toNat ≤ a.toNat → a.toNat < s.skipPadding.pc.toNat → s.read a = 0x00) ∧
    (s.skipPadding.pc = endOfMemory ∨ s.read s.skipPadding.pc ≠ 0x00) := by
  obtain ⟨hstart, -, -, hrun⟩ := s.mem.paddingEnd_spec (Address.toNat_le_top s.pc)
  rw [← s.skipPadding_pc_toNat] at hstart hrun
  refine ⟨hstart, fun a => hrun a.toNat, ?_⟩
  by_cases hend : s.skipPadding.pc = endOfMemory
  · exact .inl hend
  · exact .inr (State.skipPadding_read_ne_zero hend)

variable {s}

/-- The skip rests at the first address of which `State.skipPadding_spec` holds. -/
theorem State.skipPadding_eq_setPc {q : Address} (hle : s.pc.toNat ≤ q.toNat)
    (hzero : ∀ a : Address, s.pc.toNat ≤ a.toNat → a.toNat < q.toNat → s.read a = 0x00)
    (hrest : q = endOfMemory ∨ s.read q ≠ 0x00) : s.skipPadding = s.setPc q := by
  have hend : s.mem.paddingEnd s.pc.toNat = q.toNat := by
    refine Memory.paddingEnd_eq hle (Address.toNat_le_top q) (hrest.imp_left (congrArg BitVec.toNat)) fun a ha haq => ?_
    have hlt : a < 0x10000 := haq.trans q.isLt
    have hread := hzero (BitVec.ofNat 16 a)
    rw [State.read_ofNat s hlt, BitVec.toNat_ofNat, Nat.mod_eq_of_lt hlt] at hread
    exact hread ha haq
  rw [State.skipPadding, hend, BitVec.ofNat_toNat, BitVec.setWidth_eq]

/-- A skip over nothing: PC is at the end of memory, or at a byte that is not zero. -/
theorem State.skipPadding_eq_self (h : s.Ended ∨ s.read s.pc ≠ 0x00) : s.skipPadding = s :=
  State.skipPadding_eq_setPc le_rfl (fun _ hle hlt => absurd hle (by omega)) h

/-- A second skip finds nothing to skip. -/
theorem State.skipPadding_skipPadding (s : State) : s.skipPadding.skipPadding = s.skipPadding :=
  State.skipPadding_eq_self s.skipPadding_spec.2.2

/-- An increment below the end of memory does not wrap. -/
theorem State.advance_one_pc_toNat (h : ¬ s.Ended) : (s.advance 1).pc.toNat = s.pc.toNat + 1 := by
  change s.pc ≠ 0xFFFF at h
  rw [State.advance_pc]
  bv_omega

/-- A zero byte at PC is one byte of the run: the skip goes on as from the next address. -/
theorem State.skipPadding_of_zero (hpc : ¬ s.Ended) (hzero : s.read s.pc = 0x00) :
    s.skipPadding = (s.advance 1).skipPadding := by
  obtain ⟨hstart, hrun, hrest⟩ := (s.advance 1).skipPadding_spec
  rw [State.advance_one_pc_toNat hpc] at hstart hrun
  refine State.skipPadding_eq_setPc (Nat.le_of_succ_le hstart) (fun a hle hlt => ?_) hrest
  rcases hle.eq_or_lt with heq | hgt
  · rw [← BitVec.eq_of_toNat_eq heq]
    exact hzero
  · exact hrun a hgt hlt

/-- The loop of R123 with turns enough to reach the end of memory is the skip. -/
theorem paddingLoop_eq_skipPadding (n : Nat) (s : State) (h : 0xFFFF - s.pc.toNat ≤ n) :
    paddingLoop n s = s.skipPadding := by
  induction n generalizing s with
  | zero =>
    have hend : s.Ended := BitVec.eq_of_toNat_eq (le_antisymm (Address.toNat_le_top s.pc) (by omega))
    exact (State.skipPadding_eq_self (.inl hend)).symm
  | succ n ih =>
    rw [paddingLoop]
    split
    next hturn =>
      rw [State.skipPadding_of_zero hturn.1 hturn.2]
      exact ih _ (by rw [State.advance_one_pc_toNat hturn.1]; omega)
    next hstop => exact (State.skipPadding_eq_self (by tauto)).symm

end

/-! The statements -/

/-- Settles O9: the loop is the skip, and the skip rests where the loop's condition is false. -/
theorem paddingSkipIsTheSpecLoop : Obligations.PaddingSkipIsTheSpecLoop := by
  unfold Obligations.PaddingSkipIsTheSpecLoop
  intro s
  rw [paddingLoop_eq_skipPadding 0xFFFF s (Nat.sub_le _ _)]
  exact ⟨exec_pad s, fun ⟨hpc, hzero⟩ => State.skipPadding_read_ne_zero hpc hzero⟩

/-- Settles O10: PAD answers the state after the skip. -/
theorem padMovesPcOverZeroBytes : Obligations.PadMovesPcOverZeroBytes := by
  unfold Obligations.PadMovesPcOverZeroBytes
  intro s
  exact ⟨s.skipPadding, exec_pad s, rfl, s.skipPadding_spec⟩

end Sys2Proof.Machine
end

section
/-! Every tick by the step that ends it, and what follows for one tick: its outcome, its order, the instruction it runs
and where PC goes (40_fetch_decode.md R120 to R129, 60_exceptions.md R190, R198). -/

namespace Sys2Proof.Machine

/-! Steps 3 to 5 -/

section
variable {p : Config.TickParams} {s t : State}

/-- Step 3 that comes to rest at 0xFFFF ends the tick (R123). -/
theorem tickIn_of_skip_to_end (p : Config.TickParams) (hrun : s.Running) (hpc : s.skipPadding.pc = endOfMemory) :
    tickIn p s = .next (s.skipPadding, .skippedToEnd (s.skipPadding.pc.toNat - s.pc.toNat)) := by
  rw [tickIn_of_running p hrun, skipThenFetch_at_end p hpc]

/-- What a tick that fetches reports, of the byte the skip came to rest on (R125, R126). -/
def fetchReport (p : Config.TickParams) (s : State) : TickOutcome :=
  reportOf p.opcodes (s.read s.skipPadding.pc) s.skipPadding.pc (s.skipPadding.pc.toNat - s.pc.toNat)

/-- Any other skip is followed by the fetch and the instruction (R124, R125). -/
theorem tickIn_of_fetch (hrun : s.Running) (hpc : s.skipPadding.pc ≠ endOfMemory)
    (hexec : exec (s.skipPadding.instrAtPc p.opcodes) (s.skipPadding.advance 1) = .next t) :
    tickIn p s = .next (t, fetchReport p s) := by
  rw [← execIn_eq_exec p] at hexec
  rw [tickIn_of_running p hrun, skipThenFetch_below_end p hpc, fetchAndDispatch_next hexec]
  rfl

/-- Every tick ends in step 1, 2 or 3, or runs an instruction (R120). -/
theorem tickIn_cases (p : Config.TickParams) (s : State) :
    (s.Ended ∧ tickIn p s = .next (s, .endOfMemory)) ∨
    (¬ s.Ended ∧ s.stall = true ∧ tickIn p s = .next (s.setStall false, .stalled)) ∨
    (s.Running ∧ s.skipPadding.pc = endOfMemory ∧
      tickIn p s = .next (s.skipPadding, .skippedToEnd (s.skipPadding.pc.toNat - s.pc.toNat))) ∨
    (s.Running ∧ s.skipPadding.pc ≠ endOfMemory ∧
      ∃ t, exec (s.skipPadding.instrAtPc p.opcodes) (s.skipPadding.advance 1) = .next t ∧
        tickIn p s = .next (t, fetchReport p s)) := by
  by_cases hpc : s.Ended
  · exact .inl ⟨hpc, tickIn_of_ended p hpc⟩
  by_cases hstall : s.stall = true
  · exact .inr (.inl ⟨hpc, hstall, tickIn_of_stalled p hpc hstall⟩)
  have hrun : s.Running := ⟨hpc, Bool.eq_false_iff.mpr hstall⟩
  by_cases hskip : s.skipPadding.pc = endOfMemory
  · exact .inr (.inr (.inl ⟨hrun, hskip, tickIn_of_skip_to_end p hrun hskip⟩))
  obtain ⟨t, hexec⟩ := exec_total (s.skipPadding.instrAtPc p.opcodes) (s.skipPadding.advance 1)
  exact .inr (.inr (.inr ⟨hrun, hskip, t, hexec, tickIn_of_fetch hrun hskip hexec⟩))

theorem tickIn_total (p : Config.TickParams) (s : State) : ∃ t o, tickIn p s = .next (t, o) := by
  rcases tickIn_cases p s with ⟨-, h⟩ | ⟨-, -, h⟩ | ⟨-, -, h⟩ | ⟨-, -, t, -, h⟩ <;> exact ⟨_, _, h⟩

/-- A step is its tick without the report. -/
theorem stepIn_eq_next_iff : stepIn p s = .next t ↔ ∃ o, tickIn p s = .next (t, o) := by
  refine ⟨fun h => ?_, fun ⟨o, h⟩ => stepIn_of_tickIn h⟩
  obtain ⟨u, o, htick⟩ := tickIn_total p s
  rw [stepIn_of_tickIn htick] at h
  cases h
  exact ⟨o, htick⟩

theorem stepIn_of_skip_to_end (p : Config.TickParams) (hrun : s.Running) (hpc : s.skipPadding.pc = endOfMemory) :
    stepIn p s = .next s.skipPadding :=
  stepIn_of_tickIn (tickIn_of_skip_to_end p hrun hpc)

theorem stepIn_of_fetch (p : Config.TickParams) (hrun : s.Running) (hpc : s.skipPadding.pc ≠ endOfMemory) :
    stepIn p s = exec (s.skipPadding.instrAtPc p.opcodes) (s.skipPadding.advance 1) := by
  obtain ⟨t, hexec⟩ := exec_total (s.skipPadding.instrAtPc p.opcodes) (s.skipPadding.advance 1)
  rw [hexec, stepIn_of_tickIn (tickIn_of_fetch hrun hpc hexec)]

/-- A running state whose PC holds a byte that is not zero runs what the decoder reads there. -/
theorem stepIn_of_nonzero (p : Config.TickParams) (hrun : s.Running) (h : s.read s.pc ≠ 0x00) :
    stepIn p s = exec (s.instrAtPc p.opcodes) (s.advance 1) := by
  have hskip := State.skipPadding_of_nonzero h
  rw [stepIn_of_fetch p hrun (hskip.symm ▸ hrun.1), hskip]

/-- A ready state runs its instruction with the operand after the opcode byte. -/
theorem stepIn_of_ready {m : Mnemonic} (h : opcodesWf p.opcodes = true) (hready : s.ReadyIn p.opcodes m) :
    stepIn p s = exec (assemble m (s.read (s.pc + 1)) (s.read (s.pc + 2))) (s.advance 1) := by
  rw [stepIn_of_nonzero p hready.1 (hready.2 ▸ opcodeByteIn_ne_zero h m), hready.instrAtPc_eq h]

/-- The skip is part of the tick: from the state after it a step does the same (R123). -/
theorem stepIn_skipPadding (p : Config.TickParams) (hrun : s.Running) (hpc : s.skipPadding.pc ≠ endOfMemory) :
    stepIn p s.skipPadding = stepIn p s := by
  rw [stepIn_of_nonzero p ⟨hpc, hrun.2⟩ (State.skipPadding_read_ne_zero hpc), stepIn_of_fetch p hrun hpc]

/-- A padding byte before a state changes no step: the next address's step is the same. -/
theorem stepIn_of_zero (p : Config.TickParams) (hrun : s.Running) (hzero : s.read s.pc = 0x00) :
    stepIn p s = stepIn p (s.advance 1) := by
  have hskip := State.skipPadding_of_zero hrun.1 hzero
  by_cases hnext : (s.advance 1).Ended
  · rw [State.skipPadding_eq_self (.inl hnext)] at hskip
    rw [stepIn_of_skip_to_end p hrun (hskip ▸ hnext), hskip, stepIn_of_tickIn (tickIn_of_ended p hnext)]
  have hrun' : (s.advance 1).Running := ⟨hnext, hrun.2⟩
  by_cases hpc : s.skipPadding.pc = endOfMemory
  · rw [stepIn_of_skip_to_end p hrun hpc, stepIn_of_skip_to_end p hrun' (hskip ▸ hpc), hskip]
  · rw [stepIn_of_fetch p hrun hpc, stepIn_of_fetch p hrun' (hskip ▸ hpc), hskip]

end

/-! Reports -/

section
variable {ops : Config.OpcodeMap} {b b1 b2 : Byte}

theorem reportOf_ne_endOfMemory (ops : Config.OpcodeMap) (b : Byte) (a : Address) (n : Nat) :
    reportOf ops b a n ≠ .endOfMemory := by
  unfold reportOf
  split <;> nofun

/-- A byte that is one of the twenty is reported executed, whether or not another row has the same byte. -/
theorem reportOf_of_opcode {m : Mnemonic} (hzero : b ≠ 0x00) (h : b = opcodeByteIn ops m) (a : Address) (n : Nat) :
    reportOf ops b a n = .executed b a n := by
  rcases classifyIn_cases ops b with ⟨hb, -⟩ | ⟨-, m, -, hclass⟩ | ⟨-, habsent, -⟩
  · exact absurd hb hzero
  · rw [reportOf, hclass]
  · exact absurd h (habsent m)

/-- The report in terms of the decoded instruction, padding aside. -/
theorem reportOf_of_decodeWordIn {i : Instr} (h : decodeWordIn ops b b1 b2 = i) (hi : i ≠ .pad) (a : Address) (n : Nat) :
    reportOf ops b a n = if i = .unsupported b then .unsupported b a n else .executed b a n := by
  subst h
  rcases decodeWordIn_cases ops b b1 b2 with ⟨-, hword⟩ | ⟨-, m, -, hclass, hword⟩ | ⟨-, -, hclass, hword⟩
  · exact absurd hword hi
  · rw [hword, if_neg (assemble_ne_unsupported m b1 b2 b), reportOf, hclass]
  · rw [hword, if_pos rfl, reportOf_of_unsupported hclass]

end

/-! The tick that runs what the bytes at PC decode to -/

section
variable {p : Config.TickParams} {s : State} {i : Instr} {rest : List Byte}

/-- The decoder on the three bytes at PC reads the instruction that the fetch reads. -/
theorem instrAtPc_of_decodeIn {ops : Config.OpcodeMap}
    (h : decodeIn ops [s.read s.pc, s.read (s.pc + 1), s.read (s.pc + 2)] = .ok (i, rest)) : s.instrAtPc ops = i := by
  obtain ⟨b, more, hbytes, -, rfl, -⟩ := decodeIn_eq_ok h
  cases hbytes
  rfl

/-- A padding byte at PC is decoded as PAD, so with any other instruction there is no padding to skip. -/
theorem read_ne_zero_of_instrAtPc_ne_pad {ops : Config.OpcodeMap} (h : s.instrAtPc ops ≠ .pad) : s.read s.pc ≠ 0x00 :=
  fun hzero => h (decodeWordIn_eq_pad_iff.mpr hzero)

theorem stepIn_of_instrAtPc (hrun : s.Running) (h : s.instrAtPc p.opcodes = i) (hi : i ≠ .pad) :
    stepIn p s = exec i (s.advance 1) := by
  subst h
  exact stepIn_of_nonzero p hrun (read_ne_zero_of_instrAtPc_ne_pad hi)

theorem tickIn_of_instrAtPc {t : State} (hrun : s.Running) (h : s.instrAtPc p.opcodes = i) (hi : i ≠ .pad)
    (hexec : exec i (s.advance 1) = .next t) :
    tickIn p s = .next (t, if i = .unsupported (s.read s.pc) then .unsupported (s.read s.pc) s.pc 0
      else .executed (s.read s.pc) s.pc 0) := by
  have hskip : s.skipPadding = s :=
    State.skipPadding_of_nonzero (read_ne_zero_of_instrAtPc_ne_pad (ops := p.opcodes) (h ▸ hi))
  have htick : tickIn p s = .next (t, fetchReport p s) := by
    refine tickIn_of_fetch hrun (hskip.symm ▸ hrun.1) ?_
    rw [hskip, h, hexec]
  rw [htick, fetchReport, hskip, Nat.sub_self, reportOf_of_decodeWordIn h hi]

end

/-! The statements on the tick -/

/-- Settles O7: no padding is skipped, so the tick is the fetch and the instruction. -/
theorem stepRunsTheDecodedInstruction : Obligations.StepRunsTheDecodedInstruction := by
  unfold Obligations.StepRunsTheDecodedInstruction
  refine ⟨fun s i rest hrun hdec _ hi => ?_, fun p s i rest hrun hdec hi => ?_⟩
  · have hinstr : s.instrAtPc defaultTickParams.opcodes = i := instrAtPc_of_decodeIn hdec
    exact ⟨stepIn_of_instrAtPc hrun hinstr hi, State.advance_one_pc_toNat hrun.1,
      fun t hexec => tickIn_of_instrAtPc hrun hinstr hi hexec⟩
  · have hinstr := instrAtPc_of_decodeIn hdec
    rw [execIn_eq_exec]
    exact ⟨stepIn_of_instrAtPc hrun hinstr hi, fun t hexec => tickIn_of_instrAtPc hrun hinstr hi hexec⟩

/-- Settles O8: the skip is step 3, and a second skip from its end is over nothing. -/
theorem tickSkipsPaddingThenFetches : Obligations.TickSkipsPaddingThenFetches := by
  unfold Obligations.TickSkipsPaddingThenFetches
  intro p s t hrun hpad
  rw [exec_pad] at hpad
  cases hpad
  refine ⟨fun hpc => ⟨tickIn_of_skip_to_end p hrun hpc, tickIn_of_skip_to_end _ hrun hpc⟩, fun hpc => ⟨?_, ?_, ?_⟩⟩
  · exact (stepIn_skipPadding p hrun hpc).symm
  · exact (stepIn_skipPadding defaultTickParams hrun hpc).symm
  · rw [exec_pad, State.skipPadding_skipPadding]

/-- Settles O13: one tick answers, and each clause names where the skip rests. -/
theorem tickOutcomeFollowsTheStepOrder : Obligations.TickOutcomeFollowsTheStepOrder := by
  unfold Obligations.TickOutcomeFollowsTheStepOrder
  intro p s
  obtain ⟨t, o, htick⟩ := tickIn_total p s
  refine ⟨t, o, htick, fun hpc => ?_, fun hpc hstall => ?_, fun hpc hstall hzero => ?_,
    fun hpc hstall q hle hlt hread hzero => ?_⟩
  · rw [tickIn_of_ended p hpc] at htick
    cases htick
    exact ⟨rfl, rfl⟩
  · rw [tickIn_of_stalled p hpc hstall] at htick
    cases htick
    exact ⟨rfl, rfl⟩
  · have hskip : s.skipPadding = s.setPc endOfMemory :=
      State.skipPadding_eq_setPc (Address.toNat_le_top s.pc) hzero (.inl rfl)
    rw [tickIn_of_skip_to_end p ⟨hpc, hstall⟩ (hskip ▸ rfl), hskip] at htick
    cases htick
    exact ⟨rfl, rfl⟩
  · have hskip : s.skipPadding = s.setPc q := State.skipPadding_eq_setPc hle hzero (.inr hread)
    have hq : s.skipPadding.pc ≠ endOfMemory := by
      rw [hskip, State.setPc_pc]
      rintro rfl
      exact absurd hlt (lt_irrefl _)
    obtain ⟨u, hexec⟩ := exec_total (s.skipPadding.instrAtPc p.opcodes) (s.skipPadding.advance 1)
    rw [tickIn_of_fetch ⟨hpc, hstall⟩ hq hexec, fetchReport, hskip, State.setPc_pc] at htick
    cases htick
    exact ⟨fun habsent => reportOf_of_unsupported (classifyIn_of_absent hread habsent) _ _,
      fun m hm => reportOf_of_opcode hread hm _ _⟩

/-- Settles O14: every arm of `exec` and every way a tick ends answers a next state. -/
theorem nothingStopsTheMachine : Obligations.NothingStopsTheMachine := by
  unfold Obligations.NothingStopsTheMachine
  have htick : ∀ (p : Config.TickParams) (s : State), ∃ t o, tickIn p s = .next (t, o) ∧ stepIn p s = .next t := by
    intro p s
    obtain ⟨t, o, htick⟩ := tickIn_total p s
    exact ⟨t, o, htick, stepIn_of_tickIn htick⟩
  exact ⟨exec_total, htick defaultTickParams, fun p i s => execIn_eq_exec p i s ▸ exec_total i s, htick⟩

/-- Settles O37: the placeholder's rule answers the same state, so its tick moves PC past the opcode byte. -/
theorem indirectLoadPlaceholderDoesNothing : Obligations.IndirectLoadPlaceholderDoesNothing := by
  unfold Obligations.IndirectLoadPlaceholderDoesNothing
  refine ⟨exec_ldaIndY, fun p s h hready => tickIn_of_ready h hready ?_⟩
  exact execIn_eq_exec p .ldaIndY (s.advance 1)

/-! The statements on PC -/

/-- BEQ's target counted from its opcode byte: the operand is one byte further, and so is the final increment. -/
theorem beqTarget_add_one (pc : Address) (d8 : Byte) :
    beqTarget (pc + 1) d8 + 1 = pc + d8.setWidth 16 - 125 := by
  have htarget := beqTarget_toNat (pc + 1) d8
  have hd := d8.isLt
  bv_omega

/-- Settles O23: a ready state runs its instruction from the address after the opcode byte. -/
theorem controlTransfersFromTheOpcodeAddress : Obligations.ControlTransfersFromTheOpcodeAddress := by
  unfold Obligations.ControlTransfersFromTheOpcodeAddress
  have hjsr : ∀ (p : Config.TickParams) (s : State), opcodesWf p.opcodes = true → s.ReadyIn p.opcodes .jsr →
      stepIn p s = .next { s with
        pc := s.read (s.pc + 2) ++ s.read (s.pc + 1), cs := s.cs ++ [s.pc + 3] } := by
    intro p s h hready
    have hpushed : s.pc + 1 + 2 = s.pc + 3 := BitVec.add_assoc _ _ _
    rw [stepIn_of_ready h hready, ← hpushed]
    exact exec_jsr _ _
  refine fun p s h => ⟨fun hready => ?_, fun hready => ?_, stepIn_jmpAbs h, hjsr p s h,
    hjsr defaultTickParams s opcodesWf_default⟩
  · have hnext : s.pc + 1 + 1 = s.pc + 2 := BitVec.add_assoc _ _ _
    rw [stepIn_of_ready h hready, ← hnext]
    exact exec_bpl _ _
  · have hnext : s.pc + 1 + 1 = s.pc + 2 := BitVec.add_assoc _ _ _
    rw [stepIn_of_ready h hready, ← hnext, ← beqTarget_add_one]
    exact exec_beq _ _

/-- Every instruction but the four control transfers steps over the operand bytes of its format (R92). -/
theorem exec_assemble_pc {m : Mnemonic} {b1 b2 : Byte} {s t : State} (hbpl : m ≠ .bpl) (hbeq : m ≠ .beq)
    (hjsr : m ≠ .jsr) (hjmp : m ≠ .jmpAbs) (h : exec (assemble m b1 b2) s = .next t) :
    t.pc = s.pc + BitVec.ofNat 16 (formatLength (formatOf m) - 1) := by
  cases m with
  | bpl | beq | jsr | jmpAbs => contradiction
  | sei | dey | txs | ldaIndY | cld | nop =>
    cases h
    exact (BitVec.add_zero _).symm
  | _ =>
    cases h
    rfl

/-- Settles O38: the opcode byte and then the operand bytes of the format. -/
theorem pcAdvancesByBytesConsumed : Obligations.PcAdvancesByBytesConsumed := by
  unfold Obligations.PcAdvancesByBytesConsumed
  intro p s t m h hready hbpl hbeq hjsr hjmp hstep
  rw [stepIn_of_ready h hready] at hstep
  have hlen := formatLength_bounds (formatOf m)
  have hone : (1 : Address).toNat = 1 := rfl
  rw [exec_assemble_pc hbpl hbeq hjsr hjmp hstep, State.advance_pc, BitVec.toNat_add, BitVec.toNat_add,
    BitVec.toNat_ofNat]
  omega

/-! The statements on stored instructions -/

/-- Settles O51: at the stored byte the state is ready for its instruction, or has one byte of padding before it. -/
theorem storeIsSeenByTheNextFetch : Obligations.StoreIsSeenByTheNextFetch := by
  unfold Obligations.StoreIsSeenByTheNextFetch
  intro d16 s t hexec hstall hpc
  rw [exec_staAbs] at hexec
  cases hexec
  have hrun : (((s.write d16 s.a).advance 2).setPc d16).Running := ⟨hpc, hstall⟩
  have hread : (((s.write d16 s.a).advance 2).setPc d16).read d16 = s.a := (s.read_advance_write 2 d16 s.a).1
  refine ⟨fun m hm => ?_, fun hzero => ?_, fun p h m hm => ?_⟩
  · exact stepIn_of_ready (p := defaultTickParams) opcodesWf_default ⟨hrun, hread.trans hm⟩
  · exact stepIn_of_zero defaultTickParams hrun (hread.trans hzero)
  · rw [execIn_eq_exec]
    exact stepIn_of_ready h ⟨hrun, hread.trans hm⟩

end Sys2Proof.Machine
end

section
/-! What `withFetchWord` stores, the parameters of a tick, and the ends of runs and frames (00_scope.md R6, R21;
40_fetch_decode.md R129; 70_reset_and_hazards.md R224). -/

namespace Sys2Proof.Machine

/-! A stored table word (log entry 4) -/

section
variable (s : State) (nbits w : Nat)

/-- Where a table word is placed is an address that a tick fetches from. -/
theorem State.withFetchWord_running : (s.withFetchWord nbits w).Running := by
  refine ⟨?_, rfl⟩
  change (if s.pc = endOfMemory then (0 : Address) else s.pc) ≠ endOfMemory
  split
  · decide
  · assumption

/-- The three bytes stand at three different addresses, so each is read back. -/
theorem State.withFetchWord_read :
    (s.withFetchWord nbits w).read (s.withFetchWord nbits w).pc = tableByte nbits w 0 ∧
    (s.withFetchWord nbits w).read ((s.withFetchWord nbits w).pc + 1) = tableByte nbits w 1 ∧
    (s.withFetchWord nbits w).read ((s.withFetchWord nbits w).pc + 2) = tableByte nbits w 2 := by
  unfold State.withFetchWord State.placeTableWord
  simp [State.read_write]

end

/-- A row of the table that decodes gives the decoder's reading of the stored bytes. -/
theorem instrAtPc_withFetchWord {nbits w : Nat} {i : Instr} (s : State) (h : decodeTableWord nbits w = some i) :
    (s.withFetchWord nbits w).instrAtPc defaultOpcodes = i := by
  obtain ⟨h0, h1, h2⟩ := s.withFetchWord_read nbits w
  unfold decodeTableWord at h
  rw [← h0, ← h1, ← h2] at h
  split at h
  next j rest hdec =>
    cases h
    exact instrAtPc_of_decodeIn hdec
  · cases h

/-- Settles O18: the state with the word stored runs what the decoder reads of it. -/
theorem storedTableWordIsWhatStepRuns : Obligations.StoredTableWordIsWhatStepRuns := by
  unfold Obligations.StoredTableWordIsWhatStepRuns
  intro s nbits w i h
  have hrun := s.withFetchWord_running nbits w
  have hinstr := instrAtPc_withFetchWord s h
  refine ⟨hrun, fun hi => stepIn_of_instrAtPc (p := defaultTickParams) hrun hinstr hi, fun hi => ?_⟩
  exact decodeWordIn_eq_pad_iff.mp (hinstr.trans hi)

/-! The parameters of a tick -/

section
variable {p q : Config.TickParams}

/-- A tick reads the opcode bytes among its parameters and nothing else (R34). -/
theorem tickIn_congr (h : p.opcodes = q.opcodes) : tickIn p = tickIn q := by
  funext s
  simp only [tickIn, skipThenFetch, fetchAndDispatch, execIn_eq_exec, h]

theorem frameAdvance_congr (h : p.opcodes = q.opcodes) (n : Nat) (s : State) :
    frameAdvance p n s = frameAdvance q n s := by
  induction n generalizing s with
  | zero => rfl
  | succ n ih => simp only [frameAdvance, tickIn_congr h, ih]

end

/-- Settles O42: neither an instruction nor a tick looks at the capacity. -/
theorem parametersChangeOnlyOpcodesAndCapacity : Obligations.ParametersChangeOnlyOpcodesAndCapacity := by
  unfold Obligations.ParametersChangeOnlyOpcodesAndCapacity
  exact ⟨execIn_eq_exec, fun p q n s h => ⟨by rw [tickIn_congr h], frameAdvance_congr h n s⟩,
    ⟨rfl, fun m => rfl⟩, fun s => ⟨tick_eq s, step_eq s⟩⟩

/-! Frames and runs, one tick at a time -/

section
variable {p : Config.TickParams} {n : Nat} {s t u : State} {o : TickOutcome} {os : List TickOutcome}

/-- A frame is its first tick and then the rest. -/
theorem frameAdvance_succ_eq_next (h : frameAdvance p (n + 1) s = .next (t, os)) :
    ∃ u o os', tickIn p s = .next (u, o) ∧ frameAdvance p n u = .next (t, os') ∧ os = o :: os' := by
  obtain ⟨u, o, htick⟩ := tickIn_total p s
  simp only [frameAdvance, htick] at h
  split at h
  next r hrest =>
    cases h
    exact ⟨u, o, r.2, htick, hrest, rfl⟩
  all_goals cases h

/-- A run is its first tick, and the rest unless that tick reported EndOfMemory (R224). -/
theorem runToEnd_succ_eq_next (h : runToEnd p (n + 1) s = .next (t, os)) :
    (tickIn p s = .next (t, .endOfMemory) ∧ os = [.endOfMemory]) ∨
    ∃ u o os', tickIn p s = .next (u, o) ∧ o ≠ .endOfMemory ∧ runToEnd p n u = .next (t, os') ∧ os = o :: os' := by
  obtain ⟨u, o, htick⟩ := tickIn_total p s
  simp only [runToEnd, htick] at h
  split at h
  next ho =>
    cases h
    exact .inl ⟨ho ▸ htick, ho ▸ rfl⟩
  next ho =>
    split at h
    next r hrest =>
      cases h
      exact .inr ⟨u, o, r.2, htick, ho, hrest, rfl⟩
    all_goals cases h

/-- EndOfMemory is reported by step 1 and no other, so nothing has changed (R121, R191). -/
theorem ended_of_tickIn_endOfMemory (h : tickIn p s = .next (t, .endOfMemory)) : s.Ended ∧ t = s := by
  rcases tickIn_cases p s with ⟨hpc, htick⟩ | ⟨-, -, htick⟩ | ⟨-, -, htick⟩ | ⟨-, -, u, -, htick⟩ <;> rw [htick] at h
  · cases h
    exact ⟨hpc, rfl⟩
  · cases h
  · cases h
  · exact absurd (congrArg Prod.snd (Host.Outcome.next.inj h)) (reportOf_ne_endOfMemory _ _ _ _)

end

/-- Every tick of a frame that starts at the end of memory reports EndOfMemory (R129). -/
theorem frameAdvance_of_ended (p : Config.TickParams) {s : State} (h : s.Ended) (n : Nat) :
    frameAdvance p n s = .next (s, List.replicate n .endOfMemory) := by
  induction n with
  | zero => rfl
  | succ n ih => simp only [frameAdvance, tickIn_of_ended p h, ih, List.replicate_succ]

/-! The statements -/

/-- Settles O16, by induction on the number of ticks: each leaves the state. -/
theorem topOfMemoryIsAbsorbing : Obligations.TopOfMemoryIsAbsorbing := by
  unfold Obligations.TopOfMemoryIsAbsorbing
  exact fun p n s h => ⟨run_of_ended h n, frameAdvance_of_ended p h n⟩

/-- Settles O17, by induction on the number of ticks asked for: a first tick that reports EndOfMemory is the whole run. -/
theorem runEndsAtTheFirstEndOfMemory : Obligations.RunEndsAtTheFirstEndOfMemory := by
  unfold Obligations.RunEndsAtTheFirstEndOfMemory
  intro p n
  induction n with
  | zero =>
    intro s t os h
    cases h
    simp
  | succ n ih =>
    intro s t os h
    rcases runToEnd_succ_eq_next h with ⟨htick, rfl⟩ | ⟨u, o, os', -, ho, hrest, rfl⟩
    · obtain ⟨hpc, rfl⟩ := ended_of_tickIn_endOfMemory htick
      exact ⟨by simp, fun _ => ⟨hpc, stepIn_of_tickIn htick⟩, by simp⟩
    · obtain ⟨hlast, hend, hall⟩ := ih u t os' hrest
      have hmem : TickOutcome.endOfMemory ∈ o :: os' ↔ TickOutcome.endOfMemory ∈ os' := by simp [ho.symm]
      rw [hmem]
      refine ⟨?_, hend, fun hos => congrArg (· + 1) (hall hos)⟩
      cases os' with
      | nil => simp
      | cons o' os' => simpa [ho.symm] using hlast

end Sys2Proof.Machine
end

section
/-! The frame and the readers of every instruction, and what a tick pushes (10_state.md R22 to R36, 20_memory.md R52,
70_reset_and_hazards.md R236). -/

namespace Sys2Proof.Machine

/-! What each operation of the state leaves unchanged -/

section
variable {e : Element} (s : State) (v : Byte) (a : Address) (f : Bool)

theorem observe_setA (h : e ≠ .a) : observe (s.setA v) e = observe s e := by
  cases e with
  | a => exact absurd rfl h
  | _ => rfl

theorem observe_setX (h : e ≠ .x) : observe (s.setX v) e = observe s e := by
  cases e with
  | x => exact absurd rfl h
  | _ => rfl

theorem observe_setY (h : e ≠ .y) : observe (s.setY v) e = observe s e := by
  cases e with
  | y => exact absurd rfl h
  | _ => rfl

theorem observe_setPc (h : e ≠ .pc) : observe (s.setPc a) e = observe s e := by
  cases e with
  | pc => exact absurd rfl h
  | _ => rfl

theorem observe_advance (h : e ≠ .pc) : observe (s.advance a) e = observe s e := observe_setPc s _ h

theorem observe_skipPadding (h : e ≠ .pc) : observe s.skipPadding e = observe s e := observe_setPc s _ h

theorem observe_push (h : e ≠ .cs) : observe (s.push a) e = observe s e := by
  cases e with
  | cs => exact absurd rfl h
  | _ => rfl

theorem observe_setFlagD (h : e ≠ .flagD) : observe (s.setFlagD f) e = observe s e := by
  cases e with
  | flagD => exact absurd rfl h
  | _ => rfl

theorem observe_setFlagI (h : e ≠ .flagI) : observe (s.setFlagI f) e = observe s e := by
  cases e with
  | flagI => exact absurd rfl h
  | _ => rfl

theorem observe_setStall (h : e ≠ .stall) : observe (s.setStall f) e = observe s e := by
  cases e with
  | stall => exact absurd rfl h
  | _ => rfl

theorem observe_setZN (hz : e ≠ .flagZ) (hn : e ≠ .flagN) : observe (s.setZN v) e = observe s e := by
  cases e with
  | flagZ => exact absurd rfl hz
  | flagN => exact absurd rfl hn
  | _ => rfl

theorem observe_loadA (ha : e ≠ .a) (hz : e ≠ .flagZ) (hn : e ≠ .flagN) : observe (s.loadA v) e = observe s e := by
  rw [State.loadA, observe_setZN _ _ hz hn, observe_setA _ _ ha]

theorem observe_setBitTest (hn : e ≠ .flagN) (hv : e ≠ .flagV) (hz : e ≠ .flagZ) :
    observe (s.setBitTest v) e = observe s e := by
  cases e with
  | flagN => exact absurd rfl hn
  | flagV => exact absurd rfl hv
  | flagZ => exact absurd rfl hz
  | _ => rfl

theorem observe_write (h : e ≠ .mem a) : observe (s.write a v) e = observe s e := by
  cases e with
  | mem b =>
    have hb : b ≠ a := fun hba => h (congrArg Element.mem hba)
    rw [observe, observe, State.read_write, if_neg hb]
  | _ => rfl

end

/-! The frame of every instruction -/

/-- Each instruction is made of operations on its writers, so any other element is as before. -/
theorem exec_frame {i : Instr} {s t : State} {e : Element} (h : exec i s = .next t) (he : e ∉ writesOf i) :
    observe t e = observe s e := by
  cases i with
  | bpl d8 =>
    rw [exec_bpl] at h
    cases h
    exact observe_setPc s _ (List.ne_of_not_mem_cons he)
  | beq d8 =>
    rw [exec_beq] at h
    cases h
    exact observe_setPc s _ (List.ne_of_not_mem_cons he)
  | _ =>
    cases h
    simp only [writesOf, List.mem_cons, List.not_mem_nil, or_false, not_or] at he
    simp [he, observe_setA, observe_setX, observe_setY, observe_setPc, observe_advance, observe_skipPadding,
      observe_push, observe_setFlagD, observe_setFlagI, observe_setStall, observe_setZN, observe_loadA,
      observe_setBitTest, observe_write]

/-- Settles O39: the frame, for every instruction and element. -/
theorem instructionsWriteOnlyTheirElements : Obligations.InstructionsWriteOnlyTheirElements := by
  unfold Obligations.InstructionsWriteOnlyTheirElements
  exact fun i s t e => exec_frame

/-! The call stack -/

/-- An instruction appends the entry it pushes, if it pushes (R33). -/
theorem exec_cs {i : Instr} {s t : State} (h : exec i s = .next t) : t.cs = s.cs ++ (pushOf s i).toList := by
  cases i with
  | bpl d8 =>
    rw [exec_bpl] at h
    cases h
    exact (List.append_nil _).symm
  | beq d8 =>
    rw [exec_beq] at h
    cases h
    exact (List.append_nil _).symm
  | jsr | txs =>
    cases h
    rfl
  | _ =>
    cases h
    exact (List.append_nil _).symm

/-- Of the twenty rows JSR and TXS push. -/
theorem pushOf_assemble_isSome (s : State) (m : Mnemonic) (b1 b2 : Byte) :
    (pushOf s (assemble m b1 b2)).isSome = (m == .jsr || m == .txs) := by cases m <;> rfl

section
variable {p : Config.TickParams} {s t : State} {o : TickOutcome}

/-- The report says whether the fetched word pushes, when no two rows share an opcode byte (R96). -/
theorem pushOf_decodeWordIn_isSome {ops : Config.OpcodeMap} (h : opcodesWf ops = true) (s : State) (b b1 b2 : Byte)
    (a : Address) (n : Nat) : (pushOf s (decodeWordIn ops b b1 b2)).isSome = reportsPush ops (reportOf ops b a n) := by
  rcases decodeWordIn_cases ops b b1 b2 with ⟨rfl, hword⟩ | ⟨-, m, rfl, -, hword⟩ | ⟨-, -, hclass, hword⟩
  · rw [hword, reportOf, classifyIn_zero]
    rfl
  · have hsame : ∀ n, (opcodeByteIn ops m == opcodeByteIn ops n) = (m == n) := fun n =>
      Bool.eq_iff_iff.mpr (by simpa using ⟨opcodeByteIn_injective h, congrArg _⟩)
    rw [hword, pushOf_assemble_isSome, reportOf_opcodeByteIn h, reportsPush, hsame, hsame]
  · rw [hword, reportOf_of_unsupported hclass]
    rfl

/-- A tick appends one entry or none to the call stack, and which its report says (R236). -/
theorem tickIn_cs (h : tickIn p s = .next (t, o)) : ∃ pushed : Option Address, t.cs = s.cs ++ pushed.toList ∧
    (opcodesWf p.opcodes = true → pushed.isSome = reportsPush p.opcodes o) := by
  rcases tickIn_cases p s with ⟨-, htick⟩ | ⟨-, -, htick⟩ | ⟨-, -, htick⟩ | ⟨-, -, u, hexec, htick⟩ <;>
    rw [htick] at h <;> cases h
  · exact ⟨none, (List.append_nil _).symm, fun _ => rfl⟩
  · exact ⟨none, (List.append_nil _).symm, fun _ => rfl⟩
  · exact ⟨none, (List.append_nil _).symm, fun _ => rfl⟩
  · exact ⟨pushOf (s.skipPadding.advance 1) (s.skipPadding.instrAtPc p.opcodes), exec_cs hexec,
      fun hwf => pushOf_decodeWordIn_isSome hwf _ _ _ _ _ _⟩

/-- Along a frame the call stack keeps every entry and grows by one for each push reported (R236). -/
theorem frameAdvance_cs (hwf : opcodesWf p.opcodes = true) {n : Nat} {os : List TickOutcome}
    (h : frameAdvance p n s = .next (t, os)) :
    s.cs <+: t.cs ∧ t.cs.length = s.cs.length + os.countP (reportsPush p.opcodes) := by
  induction n generalizing s os with
  | zero =>
    cases h
    exact ⟨List.prefix_refl _, rfl⟩
  | succ n ih =>
    obtain ⟨u, o, os', htick, hrest, rfl⟩ := frameAdvance_succ_eq_next h
    obtain ⟨pushed, hcs, hpushed⟩ := tickIn_cs htick
    obtain ⟨hprefix, hlen⟩ := ih hrest
    refine ⟨(hcs ▸ List.prefix_append _ _).trans hprefix, ?_⟩
    have hcount : pushed.toList.length = if pushed.isSome then 1 else 0 := by cases pushed <;> rfl
    rw [hlen, hcs, List.length_append, List.countP_cons, ← hpushed hwf, hcount]
    omega

end

/-- Settles O41: an instruction's push, then the ticks of a frame, then one tick with room. -/
theorem onlyJsrAndTxsPush : Obligations.OnlyJsrAndTxsPush := by
  unfold Obligations.OnlyJsrAndTxsPush
  refine ⟨fun i s t => exec_cs, fun p n s t os hwf => frameAdvance_cs hwf, fun p n s t _ hroom hstep => ?_⟩
  obtain ⟨o, htick⟩ := stepIn_eq_next_iff.mp hstep
  obtain ⟨pushed, hcs, -⟩ := tickIn_cs htick
  have hlt : s.cs.length < n := hroom n rfl
  have hone : pushed.toList.length ≤ 1 := by cases pushed <;> simp
  rw [hcs, List.length_append]
  omega

/-! The readers of every instruction -/

/-- An instruction pushes the same entry in states that agree on what it reads. -/
theorem pushOf_congr {i : Instr} {s s' : State} (h : ∀ e ∈ readsOf i, observe s e = observe s' e) :
    pushOf s i = pushOf s' i := by
  cases i with
  | jsr d16 =>
    have hpc : s.pc = s'.pc := Observed.word.inj (h .pc (by simp [readsOf]))
    rw [pushOf, pushOf, hpc]
  | txs =>
    have hx : s.x = s'.x := Observed.byte.inj (h .x (by simp [readsOf]))
    rw [pushOf, pushOf, hx]
  | _ => rfl

/-- What an instruction writes, the call stack aside, is a function of what it reads. -/
theorem exec_writes_congr {i : Instr} {s s' t t' : State} (hi : i ≠ .pad)
    (h : ∀ e ∈ readsOf i, observe s e = observe s' e) (ht : exec i s = .next t) (ht' : exec i s' = .next t') :
    ∀ e ∈ writesOf i, e ≠ .cs → observe t e = observe t' e := by
  cases i with
  | pad => exact absurd rfl hi
  | bpl d8 =>
    rw [exec_bpl] at ht ht'
    cases ht
    cases ht'
    simp only [readsOf, List.forall_mem_cons, observe, Observed.bit.injEq, Observed.word.injEq] at h
    simp [writesOf, observe, h]
  | beq d8 =>
    rw [exec_beq] at ht ht'
    cases ht
    cases ht'
    simp only [readsOf, List.forall_mem_cons, observe, Observed.bit.injEq, Observed.word.injEq] at h
    simp [writesOf, observe, h]
  | _ =>
    cases ht
    cases ht'
    simp only [readsOf, List.forall_mem_cons, List.not_mem_nil, false_implies, implies_true, and_true, observe,
      Observed.byte.injEq, Observed.word.injEq] at h
    simp [writesOf, observe, State.read_write, absoluteOperand, h]

/-- Settles O40: the written elements by cases on the instruction, the pushed entry by its own lemma. -/
theorem instructionsReadOnlyTheirElements : Obligations.InstructionsReadOnlyTheirElements := by
  unfold Obligations.InstructionsReadOnlyTheirElements
  intro i s s' t t' hi h ht ht'
  refine ⟨exec_writes_congr hi h ht ht', _, exec_cs ht, ?_⟩
  rw [pushOf_congr h]
  exact exec_cs ht'

end Sys2Proof.Machine
end

section
/-! What holds along every run: the elements that nothing writes, the elements that nothing reads, and the canonical form
of memory (10_state.md R25, R30, R33, R34; 20_memory.md). -/

namespace Sys2Proof.Machine

/-! A relation kept by every step -/

/-- A reflexive and transitive relation that clearing the latch and every instruction keep is kept by every step: a tick
does nothing else, its moves of PC being what PAD and JMP do. -/
theorem stepIn_relates {P : State → State → Prop} (hrefl : ∀ s, P s s) (htrans : ∀ s t u, P s t → P t u → P s u)
    (hstall : ∀ s, P s (s.setStall false)) (hexec : ∀ i s t, exec i s = .next t → P s t)
    {p : Config.TickParams} {s t : State} (h : stepIn p s = .next t) : P s t := by
  obtain ⟨o, h⟩ := stepIn_eq_next_iff.mp h
  have hskip : P s s.skipPadding := hexec _ _ _ (exec_pad s)
  rcases tickIn_cases p s with ⟨-, htick⟩ | ⟨-, -, htick⟩ | ⟨-, -, htick⟩ | ⟨-, -, u, hrun, htick⟩ <;>
    rw [htick] at h <;> cases h
  · exact hrefl s
  · exact hstall s
  · exact hskip
  · have hfetch : P s.skipPadding (s.skipPadding.advance 1) := hexec _ _ _ (exec_jmpAbs _ _)
    exact htrans _ _ _ hskip (htrans _ _ _ hfetch (hexec _ _ _ hrun))

/-- And so it is along every run. -/
theorem run_relates_of_exec {P : State → State → Prop} (hrefl : ∀ s, P s s) (htrans : ∀ s t u, P s t → P t u → P s u)
    (hstall : ∀ s, P s (s.setStall false)) (hexec : ∀ i s t, exec i s = .next t → P s t) (n : Nat) (s t : State)
    (h : Sys2Proof.core.run n s = .next t) : P s t := by
  refine run_relates hrefl (fun s t u hstep htail => ?_) n s t h
  have hstep : stepIn defaultTickParams s = .next t := hstep
  exact htrans s t u (stepIn_relates hrefl htrans hstall hexec hstep) htail

/-! What nothing writes -/

/-- SP, B and C as before, D not newly set, I not newly clear, the call stack only longer (R25, R30, R33). -/
def State.KeepsUnwritten (s t : State) : Prop :=
  t.sp = s.sp ∧ t.flagB = s.flagB ∧ t.flagC = s.flagC ∧
  (t.flagD = true → s.flagD = true) ∧ (s.flagI = true → t.flagI = true) ∧ s.cs <+: t.cs

theorem State.KeepsUnwritten.refl (s : State) : s.KeepsUnwritten s :=
  ⟨rfl, rfl, rfl, id, id, List.prefix_refl _⟩

theorem State.KeepsUnwritten.trans {s t u : State} (hst : s.KeepsUnwritten t) (htu : t.KeepsUnwritten u) :
    s.KeepsUnwritten u := by
  obtain ⟨hsp, hb, hc, hd, hi, hcs⟩ := hst
  obtain ⟨hsp', hb', hc', hd', hi', hcs'⟩ := htu
  exact ⟨hsp'.trans hsp, hb'.trans hb, hc'.trans hc, hd ∘ hd', hi' ∘ hi, hcs.trans hcs'⟩

/-- No instruction has SP, B or C among its writers (R25, R30). -/
theorem unwritten_notMem_writesOf (i : Instr) :
    Element.sp ∉ writesOf i ∧ Element.flagB ∉ writesOf i ∧ Element.flagC ∉ writesOf i := by
  cases i <;> simp [writesOf]

theorem exec_keepsUnwritten {i : Instr} {s t : State} (h : exec i s = .next t) : s.KeepsUnwritten t := by
  obtain ⟨hsp, hb, hc⟩ := unwritten_notMem_writesOf i
  refine ⟨Observed.byte.inj (exec_frame h hsp), Observed.bit.inj (exec_frame h hb), Observed.bit.inj (exec_frame h hc),
    fun hd => ?_, fun hi => ?_, exec_cs h ▸ List.prefix_append _ _⟩
  · rw [exec_flagD h] at hd
    exact Bool.and_elim_right hd
  · rw [exec_flagI h, hi, Bool.or_true]

/-- Settles O43, along the run: every instruction keeps the relation. -/
theorem runsKeepUnwrittenState : Obligations.RunsKeepUnwrittenState := by
  unfold Obligations.RunsKeepUnwrittenState
  exact run_relates_of_exec State.KeepsUnwritten.refl (fun s t u => State.KeepsUnwritten.trans)
    (fun s => State.KeepsUnwritten.refl s) fun i s t => exec_keepsUnwritten

/-! The canonical form of memory -/

/-- An instruction leaves memory or writes one byte of it (R52). -/
theorem exec_mem {i : Instr} {s t : State} (h : exec i s = .next t) :
    t.mem = s.mem ∨ ∃ (a : Address) (v : Byte), t.mem = s.mem.writeAt a.toNat v := by
  cases i with
  | bpl d8 =>
    rw [exec_bpl] at h
    cases h
    exact .inl rfl
  | beq d8 =>
    rw [exec_beq] at h
    cases h
    exact .inl rfl
  | staZp | stxZp | staAbs =>
    cases h
    exact .inr ⟨_, _, rfl⟩
  | _ =>
    cases h
    exact .inl rfl

theorem exec_inv {i : Instr} {s t : State} (h : exec i s = .next t) (hs : s.Inv) : t.Inv := by
  rcases exec_mem h with hmem | ⟨a, v, hmem⟩
  · rw [State.Inv, hmem]
    exact hs
  · rw [State.Inv, hmem]
    exact Memory.wf_writeAt v a.isLt hs

theorem stepIn_inv {p : Config.TickParams} {s t : State} (h : stepIn p s = .next t) : s.Inv → t.Inv :=
  stepIn_relates (P := fun s t => s.Inv → t.Inv) (fun _ => id) (fun _ _ _ hst htu => htu ∘ hst) (fun _ => id)
    (fun _ _ _ => exec_inv) h

theorem run_inv {n : Nat} {s t : State} (h : Sys2Proof.core.run n s = .next t) : s.Inv → t.Inv :=
  run_relates_of_exec (P := fun s t => s.Inv → t.Inv) (fun _ => id) (fun _ _ _ hst htu => htu ∘ hst) (fun _ => id)
    (fun _ _ _ => exec_inv) n s t h

/-- Settles O45: a tick writes memory by its instruction only, and a byte write keeps the form. -/
theorem stepsKeepMemoryCanonical : Obligations.StepsKeepMemoryCanonical := by
  unfold Obligations.StepsKeepMemoryCanonical
  exact ⟨fun s t hs h => stepIn_inv (p := defaultTickParams) h hs, fun p s t hs h => stepIn_inv h hs,
    fun n s t hs h => run_inv h hs⟩

/-! What nothing reads -/

/-- Instructions started in states that agree on what can be read end in states that do (R25, R30, R34). -/
theorem exec_sameReadable {i : Instr} {s s' t : State} (h : s.SameReadable s') (hexec : exec i s = .next t) :
    ∃ t', exec i s' = .next t' ∧ t.SameReadable t' := by
  obtain ⟨ha, hx, hy, hpc, hn, hz, hst, hm⟩ := h
  have hread : ∀ a, s.read a = s'.read a := fun a => congrArg (Memory.readAt · a.toNat) hm
  cases i with
  | bpl d8 =>
    rw [exec_bpl] at hexec
    cases hexec
    exact ⟨_, exec_bpl d8 s', by simp [State.SameReadable, *]⟩
  | beq d8 =>
    rw [exec_beq] at hexec
    cases hexec
    exact ⟨_, exec_beq d8 s', by simp [State.SameReadable, *]⟩
  | _ =>
    cases hexec
    exact ⟨_, rfl, by simp [State.SameReadable, absoluteOperand, *]⟩

/-- And so do ticks, with the same reports: the skip and the fetch read PC and memory only. -/
theorem tickIn_sameReadable {p : Config.TickParams} {s s' t : State} {o : TickOutcome} (h : s.SameReadable s')
    (htick : tickIn p s = .next (t, o)) : ∃ t', tickIn p s' = .next (t', o) ∧ t.SameReadable t' := by
  obtain ⟨ha, hx, hy, hpc, hn, hz, hst, hm⟩ := h
  have hskippc : s'.skipPadding.pc = s.skipPadding.pc := by
    rw [State.skipPadding_pc, State.skipPadding_pc, hpc, hm]
  have hskip : s.skipPadding.SameReadable s'.skipPadding := ⟨ha, hx, hy, hskippc.symm, hn, hz, hst, hm⟩
  have hrun : s.Running → s'.Running := fun ⟨hend, hstall⟩ => ⟨hpc ▸ hend, hst ▸ hstall⟩
  rcases tickIn_cases p s with ⟨hend, he⟩ | ⟨hend, hstall, he⟩ | ⟨hr, hrest, he⟩ | ⟨hr, hrest, u, hexec, he⟩ <;>
    rw [he] at htick <;> cases htick
  · exact ⟨s', tickIn_of_ended p (hpc.symm.trans hend), ha, hx, hy, hpc, hn, hz, hst, hm⟩
  · exact ⟨_, tickIn_of_stalled p (fun he => hend (hpc.trans he)) (hst ▸ hstall), ha, hx, hy, hpc, hn, hz, rfl, hm⟩
  · refine ⟨_, ?_, hskip⟩
    rw [tickIn_of_skip_to_end p (hrun hr) (hskippc.trans hrest), hskippc, hpc]
  · have hread : ∀ a, s'.read a = s.read a := fun a => congrArg (Memory.readAt · a.toNat) hm.symm
    have hinstr : s'.skipPadding.instrAtPc p.opcodes = s.skipPadding.instrAtPc p.opcodes := by
      simp only [State.instrAtPc, hskippc, State.skipPadding_read, hread]
    have hadvance : (s.skipPadding.advance 1).SameReadable (s'.skipPadding.advance 1) :=
      ⟨ha, hx, hy, congrArg (· + 1) hskippc.symm, hn, hz, hst, hm⟩
    obtain ⟨t', hexec', hsame⟩ := exec_sameReadable hadvance hexec
    refine ⟨t', ?_, hsame⟩
    rw [tickIn_of_fetch (hrun hr) (hskippc ▸ hrest) (hinstr ▸ hexec'), fetchReport, fetchReport, hskippc, hread, hpc]

theorem stepIn_sameReadable {p : Config.TickParams} {s s' t : State} (h : s.SameReadable s')
    (hstep : stepIn p s = .next t) : ∃ t', stepIn p s' = .next t' ∧ t.SameReadable t' := by
  obtain ⟨o, htick⟩ := stepIn_eq_next_iff.mp hstep
  obtain ⟨t', htick', hsame⟩ := tickIn_sameReadable h htick
  exact ⟨t', stepIn_of_tickIn htick', hsame⟩

/-- Every step answers a next state, so a run is its first step and then the rest. -/
theorem run_succ_eq_next {n : Nat} {s t : State} :
    Sys2Proof.core.run (n + 1) s = .next t ↔ ∃ u, step s = .next u ∧ Sys2Proof.core.run n u = .next t := by
  rw [run_succ]
  cases step s <;> simp

/-- Two runs in step, by induction on their length. -/
theorem run_sameReadable {n : Nat} {s s' t : State} (h : s.SameReadable s')
    (hrun : Sys2Proof.core.run n s = .next t) : ∃ t', Sys2Proof.core.run n s' = .next t' ∧ t.SameReadable t' := by
  induction n generalizing s s' with
  | zero =>
    cases hrun
    exact ⟨s', rfl, h⟩
  | succ n ih =>
    obtain ⟨u, hstep, hrest⟩ := run_succ_eq_next.mp hrun
    obtain ⟨u', hstep', hsame⟩ := stepIn_sameReadable (p := defaultTickParams) h hstep
    obtain ⟨t', hrest', hend⟩ := ih hsame hrest
    exact ⟨t', run_succ_eq_next.mpr ⟨u', hstep', hrest'⟩, hend⟩

/-- Settles O44: step by step the two runs read the same and so write the same. -/
theorem unreadStateNeverInfluencesARun : Obligations.UnreadStateNeverInfluencesARun := by
  unfold Obligations.UnreadStateNeverInfluencesARun
  exact ⟨fun n s s' t => run_sameReadable, fun p s s' t => stepIn_sameReadable⟩

end Sys2Proof.Machine
end

section
/-! Memory as a whole: the canonical form names each memory once, and what the mapper builds, at every address
(20_memory.md R50 to R68, 10_state.md R37, 60_exceptions.md R194). -/

namespace Sys2Proof.Machine

/-! Canonical memories -/

/-- The cells of a memory with rising addresses are what is read at their addresses. -/
theorem Memory.readAt_of_mem {m : Memory} (h : List.Pairwise (fun c d : Host.Cell => c.1 < d.1) m) {c : Host.Cell}
    (hc : c ∈ m) : m.readAt c.1 = c.2 := by
  induction m with
  | nil => cases hc
  | cons d m ih =>
    obtain ⟨hd, hm⟩ := List.pairwise_cons.mp h
    obtain ⟨k, v⟩ := d
    rcases List.mem_cons.mp hc with rfl | hc
    · exact if_pos rfl
    · rw [Memory.readAt_cons, if_neg (hd c hc).ne, ih hm hc]

/-- A canonical memory lists exactly the addresses of the space that do not read as `Memory.fill`. -/
theorem Memory.mem_iff_readAt {m : Memory} (h : m.wf) (c : Host.Cell) :
    c ∈ m ↔ c.1 < 0x10000 ∧ c.2 ≠ Memory.fill ∧ m.readAt c.1 = c.2 := by
  obtain ⟨hrising, hcells⟩ := h
  refine ⟨fun hc => ⟨(hcells c hc).1, (hcells c hc).2, Memory.readAt_of_mem hrising hc⟩, fun ⟨_, hfill, hread⟩ => ?_⟩
  by_cases hlisted : ∃ d ∈ m, d.1 = c.1
  · obtain ⟨d, hd, hdc⟩ := hlisted
    have hval : d.2 = c.2 := by rw [← Memory.readAt_of_mem hrising hd, hdc, hread]
    exact Prod.ext hdc hval ▸ hd
  · exact absurd (hread.symm.trans (Memory.readAt_of_absent fun d hd hdc => hlisted ⟨d, hd, hdc⟩)) hfill

/-- Settles O48: the two lists have the same cells, and rising addresses fix their order. -/
theorem canonicalMemoriesAreEqualWhenTheyReadEqual : Obligations.CanonicalMemoriesAreEqualWhenTheyReadEqual := by
  unfold Obligations.CanonicalMemoriesAreEqualWhenTheyReadEqual
  intro m n hm hn hread
  have hcells : ∀ c, c ∈ m ↔ c ∈ n := by
    intro c
    rw [Memory.mem_iff_readAt hm, Memory.mem_iff_readAt hn]
    refine and_congr_right fun hc => ?_
    have hsame := hread (BitVec.ofNat 16 c.1)
    rw [BitVec.toNat_ofNat, Nat.mod_eq_of_lt hc] at hsame
    rw [hsame]
  have hirrefl : Std.Irrefl fun c d : Host.Cell => c.1 < d.1 := ⟨fun c => lt_irrefl c.1⟩
  have hantisymm : Std.Antisymm fun c d : Host.Cell => c.1 < d.1 := ⟨fun c d hcd hdc => absurd hcd hdc.asymm⟩
  exact hm.1.eq_of_mem_iff hn.1 hcells

/-- Settles O46: nothing is listed. -/
theorem resetMemoryIsCanonical : Obligations.ResetMemoryIsCanonical := Memory.wf_nil

/-- Settles O50: the two bytes joined, the second address wrapping. -/
theorem twoByteReadIsLittleEndian : Obligations.TwoByteReadIsLittleEndian := by
  unfold Obligations.TwoByteReadIsLittleEndian
  intro s a
  have hnext : BitVec.ofNat 16 ((a.toNat + 1) % 65536) = a + 1 := by
    apply BitVec.eq_of_toNat_eq
    simp [BitVec.toNat_add]
  rw [hnext]
  exact joinBytes_toNat _ _

/-! Banks -/

/-- Two memories on the two sides of an address, read as one. -/
theorem Memory.readAt_append_of_split {m n : Memory} {k : Nat} (hm : ∀ c ∈ m, c.1 < k) (hn : ∀ c ∈ n, k ≤ c.1)
    (a : Nat) : Memory.readAt (m ++ n) a = if a < k then m.readAt a else n.readAt a := by
  rw [Memory.readAt_append]
  by_cases hlisted : ∃ c ∈ m, c.1 = a
  · obtain ⟨c, hc, rfl⟩ := hlisted
    rw [if_pos ⟨c, hc, rfl⟩, if_pos (hm c hc)]
  · rw [if_neg hlisted]
    split
    next hlt =>
      rw [Memory.readAt_of_absent fun c hc hca => hlisted ⟨c, hc, hca⟩]
      exact Memory.readAt_of_absent fun c hc hca => absurd (hn c hc) (by omega)
    · rfl

/-- The first `n` bytes of a bank, read beyond its end as `d`. -/
theorem getD_take {α : Type} (l : List α) (n i : Nat) (d : α) :
    (l.take n).getD i d = if i < n then l.getD i d else d := by
  rw [List.getD_eq_getElem?_getD, List.getElem?_take]
  split
  · exact List.getD_eq_getElem?_getD.symm
  · rfl

theorem getD_drop {α : Type} (l : List α) (n i : Nat) (d : α) : (l.drop n).getD i d = l.getD (n + i) d := by
  rw [List.getD_eq_getElem?_getD, List.getElem?_drop, List.getD_eq_getElem?_getD]

/-- A bank cut at its window's size, placed at the window's base. -/
theorem Memory.mem_cellsFrom_take {base n : Nat} {bs : List Byte} {c : Host.Cell}
    (h : c ∈ Memory.cellsFrom base (bs.take n)) : base ≤ c.1 ∧ c.1 < base + n := by
  obtain ⟨hbase, hend, -⟩ := Memory.mem_cellsFrom h
  have hlen := List.length_take_le n bs
  exact ⟨hbase, by omega⟩

theorem Memory.wf_cellsFrom_take {base n : Nat} (bs : List Byte) (h : base + n ≤ 0x10000) :
    (Memory.cellsFrom base (bs.take n)).wf := by
  have hlen := List.length_take_le n bs
  exact Memory.wf_cellsFrom (by omega)

theorem Memory.readAt_cellsFrom_take {base n a : Nat} (bs : List Byte) (h : base ≤ a) :
    (Memory.cellsFrom base (bs.take n)).readAt a = if a < base + n then bs.getD (a - base) Memory.fill
      else Memory.fill := by
  rw [Memory.readAt_cellsFrom, if_pos h, getD_take]
  exact if_congr (by omega) rfl rfl

/-! What mapper 0 builds -/

/-- Where PRG window 1 is filled from: the bank again under the mirror condition (R61), else what follows window 0. -/
def prgWindow1Source (prg : List Byte) : List Byte := if prg.length = 16384 then prg else prg.drop 16384

/-- The two PRG windows of mapper 0, filled (R59 to R61). -/
def prgWindows (prg : List Byte) : Memory :=
  Memory.cellsFrom 0x8000 (prg.take 0x4000) ++ Memory.cellsFrom 0xC000 ((prgWindow1Source prg).take 0x4000)

/-- The memory of mapper 0: CHR, then the two PRG windows (R59 to R62). -/
theorem mapper0Memory_eq (img : CartridgeImage) :
    mapper0Memory img = Memory.cellsFrom 0 (img.chr.take 0x2000) ++ prgWindows img.prg := by
  have hsource : img.prg.drop (if img.prg.length = 16384 then 0 else (img.prg.take 16384).length) =
      prgWindow1Source img.prg := by
    unfold prgWindow1Source
    split
    · rfl
    · rcases Nat.le_total 16384 img.prg.length with hlen | hlen
      · rw [List.length_take_of_le hlen]
      · rw [List.take_of_length_le hlen, List.drop_length, List.drop_of_length_le hlen]
  rw [prgWindows, ← hsource]
  simp [mapper0Memory, mapper0Windows, prgRamWindow, prgWindow0, prgWindow1, chrWindow, copyChr, copyPrg, mirrorLength]

section
variable (prg : List Byte)

theorem le_of_mem_prgWindows {c : Host.Cell} (h : c ∈ prgWindows prg) : 0x8000 ≤ c.1 := by
  rcases List.mem_append.mp h with h | h
  · exact (Memory.mem_cellsFrom_take h).1
  · have := (Memory.mem_cellsFrom_take h).1
    omega

theorem wf_prgWindows : (prgWindows prg).wf :=
  Memory.wf_append (Memory.wf_cellsFrom_take _ (by omega)) (Memory.wf_cellsFrom_take _ (by omega))
    (fun _ hc => (Memory.mem_cellsFrom_take hc).2) fun _ hc => (Memory.mem_cellsFrom_take hc).1

variable {prg} {a : Nat}

/-- Window 0 holds the first 16 KiB of the bank (R60). -/
theorem readAt_prgWindows_window0 (h : 0x8000 ≤ a) (ha : a < 0xC000) :
    (prgWindows prg).readAt a = prg.getD (a - 0x8000) 0x00 := by
  rw [prgWindows, Memory.readAt_append_of_split (k := 0xC000) (fun _ hc => (Memory.mem_cellsFrom_take hc).2)
    fun _ hc => (Memory.mem_cellsFrom_take hc).1, if_pos ha, Memory.readAt_cellsFrom_take _ h, if_pos ha]
  rfl

/-- Window 1 holds the second 16 KiB, or the bank again under the mirror condition (R60, R61). -/
theorem readAt_prgWindows_window1 (h : 0xC000 ≤ a) (ha : a < 0x10000) :
    (prgWindows prg).readAt a = (prgWindow1Source prg).getD (a - 0xC000) 0x00 := by
  rw [prgWindows, Memory.readAt_append_of_split (k := 0xC000) (fun _ hc => (Memory.mem_cellsFrom_take hc).2)
    fun _ hc => (Memory.mem_cellsFrom_take hc).1, if_neg (by omega), Memory.readAt_cellsFrom_take _ h, if_pos ha]
  rfl

/-- Both windows by one rule (R60, R61). -/
theorem readAt_prgWindows (h : 0x8000 ≤ a) (ha : a < 0x10000) : (prgWindows prg).readAt a =
    if prg.length = 16384 then prg.getD ((a - 0x8000) % 16384) 0x00 else prg.getD (a - 0x8000) 0x00 := by
  rcases Nat.lt_or_ge a 0xC000 with hw | hw
  · rw [readAt_prgWindows_window0 h hw, Nat.mod_eq_of_lt (by omega), ite_self]
  · have hmirror : (a - 0x8000) % 16384 = a - 0xC000 := by omega
    have hwhole : a - 0x8000 = 16384 + (a - 0xC000) := by omega
    rw [readAt_prgWindows_window1 hw ha, hmirror, hwhole, prgWindow1Source]
    split
    · rfl
    · exact getD_drop _ _ _ _

end

theorem wf_mapper0Memory (img : CartridgeImage) : (mapper0Memory img).wf := by
  rw [mapper0Memory_eq]
  exact Memory.wf_append (k := 0x8000) (Memory.wf_cellsFrom_take _ (by omega)) (wf_prgWindows _)
    (fun c hc => (Memory.mem_cellsFrom_take hc).2.trans (by omega)) fun c => le_of_mem_prgWindows _

/-- The address map of mapper 0 (R53, R59 to R62, R65, R66). -/
theorem readAt_mapper0Memory (img : CartridgeImage) {a : Nat} (ha : a < 0x10000) : (mapper0Memory img).readAt a =
    if a < 0x2000 then img.chr.getD a 0x00
    else if a < 0x8000 then 0x00
    else if img.prg.length = 16384 then img.prg.getD ((a - 0x8000) % 16384) 0x00
    else img.prg.getD (a - 0x8000) 0x00 := by
  rw [mapper0Memory_eq, Memory.readAt_append_of_split (k := 0x8000)
    (fun c hc => (Memory.mem_cellsFrom_take hc).2.trans (by omega)) fun c => le_of_mem_prgWindows _,
    Memory.readAt_cellsFrom_take _ (Nat.zero_le a), Nat.zero_add]
  by_cases hchr : a < 0x2000
  · rw [if_pos (by omega), if_pos hchr, if_pos hchr]
    rfl
  rw [if_neg hchr, if_neg hchr]
  by_cases hprg : a < 0x8000
  · rw [if_pos hprg, if_pos hprg]
    rfl
  · rw [if_neg hprg, if_neg hprg, readAt_prgWindows (by omega) ha]

/-! What mapper 5 builds -/

/-- The memory of mapper 5: the first 32 KiB of the bank (R63). -/
theorem mapper5Memory_eq (img : CartridgeImage) :
    mapper5Memory img = Memory.cellsFrom 0x8000 (img.prg.take 0x8000) := List.append_nil _

theorem wf_mapper5Memory (img : CartridgeImage) : (mapper5Memory img).wf :=
  mapper5Memory_eq img ▸ Memory.wf_cellsFrom_take _ (by omega)

/-- The address map of mapper 5 (R63, R65, R66). -/
theorem readAt_mapper5Memory (img : CartridgeImage) {a : Nat} (ha : a < 0x10000) : (mapper5Memory img).readAt a =
    if a < 0x8000 then 0x00 else img.prg.getD (a - 0x8000) 0x00 := by
  rw [mapper5Memory_eq]
  by_cases hprg : a < 0x8000
  · rw [if_pos hprg, Memory.readAt_cellsFrom, if_neg (by omega)]
    rfl
  · rw [if_neg hprg, Memory.readAt_cellsFrom_take _ (by omega), if_pos ha]
    rfl

/-! Loads -/

section
variable {p : Config.LoadParams} {img : CartridgeImage} {s : State}

/-- Mapper 5 with a zero mode byte loads (R63). -/
theorem load_mapper5 (h : img.mapperId = 5) (hmode : img.prg[p.mapper5ModeOffset]? = some 0x00) :
    load p img = .next (initialState p.reset (mapper5Memory img)) := by
  have h0 : img.mapperId ≠ 0 := by
    rw [h]
    decide
  rw [load, buildMemory, if_neg h0, if_pos h, mapper5Mode, if_pos hmode]

/-- Mapper 5 with any other mode byte, or none, does not (R63, D14). -/
theorem load_mapper5_of_other_mode (h : img.mapperId = 5) (hmode : img.prg[p.mapper5ModeOffset]? ≠ some 0x00) :
    load p img = .fault .unsupportedMapperMode := by
  have h0 : img.mapperId ≠ 0 := by
    rw [h]
    decide
  rw [load, buildMemory, if_neg h0, if_pos h, mapper5Mode, if_neg hmode]

/-- Every load that succeeds is one of mapper 0 or one of mapper 5 in mode 0 (R58, R63, R64). -/
theorem load_eq_next (h : load p img = .next s) :
    (img.mapperId = 0 ∧ s = initialState p.reset (mapper0Memory img)) ∨
    (img.mapperId = 5 ∧ s = initialState p.reset (mapper5Memory img)) := by
  by_cases h0 : img.mapperId = 0
  · rw [load_mapper0 p h0] at h
    cases h
    exact .inl ⟨h0, rfl⟩
  by_cases h5 : img.mapperId = 5
  · by_cases hmode : img.prg[p.mapper5ModeOffset]? = some 0x00
    · rw [load_mapper5 h5 hmode] at h
      cases h
      exact .inr ⟨h5, rfl⟩
    · rw [load_mapper5_of_other_mode h5 hmode] at h
      cases h
  · rw [otherMappersAreRefused p img h0 h5] at h
    cases h

/-- A loaded machine's PC is the pair of bytes at the reset vector (R67). -/
theorem initialState_pc (r : Config.ResetValues) (m : Memory) :
    (initialState r m).pc = joinBytes (m.readAt 0xFFFD) (m.readAt 0xFFFC) := rfl

/-- The reset vector of mapper 0 (R67). -/
theorem pc_of_load_mapper0 (h0 : img.mapperId = 0) (h : load p img = .next s) : s.pc =
    if img.prg.length = 16384 then joinBytes (img.prg.getD 0x3FFD 0x00) (img.prg.getD 0x3FFC 0x00)
    else joinBytes (img.prg.getD 0x7FFD 0x00) (img.prg.getD 0x7FFC 0x00) := by
  rw [load_mapper0 p h0] at h
  cases h
  by_cases hlen : img.prg.length = 16384 <;> simp [initialState_pc, readAt_mapper0Memory, hlen]

/-- The reset vector of mapper 5 (R67). -/
theorem pc_of_load_mapper5 (h5 : img.mapperId = 5) (h : load p img = .next s) :
    s.pc = joinBytes (img.prg.getD 0x7FFD 0x00) (img.prg.getD 0x7FFC 0x00) := by
  rcases load_eq_next h with ⟨h0, -⟩ | ⟨-, rfl⟩
  · rw [h5] at h0
    exact absurd h0 (by decide)
  · rw [initialState_pc, readAt_mapper5Memory img (by omega), readAt_mapper5Memory img (by omega)]
    rfl

end

/-! The statements -/

/-- Settles O47: the windows lie one after another inside the address space. -/
theorem loadedMemoryIsCanonical : Obligations.LoadedMemoryIsCanonical := by
  unfold Obligations.LoadedMemoryIsCanonical
  intro p img s h
  rcases load_eq_next h with ⟨-, rfl⟩ | ⟨-, rfl⟩
  · exact wf_mapper0Memory img
  · exact wf_mapper5Memory img

/-- Settles O52: mapper 0 loads, and its memory reads by the map. -/
theorem mapperZeroAddressMap : Obligations.MapperZeroAddressMap := by
  unfold Obligations.MapperZeroAddressMap
  exact fun p img h0 => ⟨_, load_mapper0 p h0, fun a => readAt_mapper0Memory img a.isLt⟩

/-- Settles O54: the map at the two windows' addresses. -/
theorem thirtyTwoKilobytePrgIsPlacedWhole : Obligations.ThirtyTwoKilobytePrgIsPlacedWhole := by
  unfold Obligations.ThirtyTwoKilobytePrgIsPlacedWhole
  intro p img h0 hlen
  refine ⟨_, load_mapper0 p h0, fun i hi => ?_⟩
  have hread : ∀ k, k < 32768 → (initialState p.reset (mapper0Memory img)).read (BitVec.ofNat 16 (0x8000 + k)) =
      img.prg.getD k 0x00 := by
    intro k hk
    rw [State.read_ofNat _ (by omega), initialState_mem, readAt_mapper0Memory img (by omega), if_neg (by omega),
      if_neg (by omega), if_neg (by omega), Nat.add_sub_cancel_left]
  have hwindow1 : 0xC000 + i = 0x8000 + (16384 + i) := by omega
  rw [hwindow1]
  exact ⟨hread i (by omega), hread (16384 + i) (by omega)⟩

/-- Settles O55: the mode byte decides whether mapper 5 loads, and its memory reads by the map. -/
theorem mapperFiveModeZero : Obligations.MapperFiveModeZero := by
  unfold Obligations.MapperFiveModeZero
  exact fun p img h5 => ⟨fun hmode => ⟨_, load_mapper5 h5 hmode, fun a => readAt_mapper5Memory img a.isLt⟩,
    load_mapper5_of_other_mode h5⟩

/-- Settles O57: the length check is the first test. -/
theorem shortBufferIsInvalidRom : Obligations.ShortBufferIsInvalidRom := by
  unfold Obligations.ShortBufferIsInvalidRom
  exact fun rawLength headerLength p img => ⟨fun h => if_pos h, fun h => if_neg (not_lt.mpr h)⟩

/-- Settles O58: every load that succeeds answers `initialState`. -/
theorem loadedStateIsAsResetSays : Obligations.LoadedStateIsAsResetSays := by
  unfold Obligations.LoadedStateIsAsResetSays
  intro p img s h
  obtain ⟨m, rfl⟩ : ∃ m, s = initialState p.reset m := by
    rcases load_eq_next h with ⟨-, hs⟩ | ⟨-, hs⟩
    · exact ⟨_, hs⟩
    · exact ⟨_, hs⟩
  refine ⟨?_, rfl, rfl, rfl, rfl, rfl, rfl, rfl, rfl, rfl, rfl, rfl, rfl, rfl⟩
  rw [initialState_pc]
  exact joinBytes_toNat _ _

/-- Settles O59: the two bytes of the vector, by mapper and length; beyond the bank's end they read as zero. -/
theorem resetVectorComesFromThePrg : Obligations.ResetVectorComesFromThePrg := by
  unfold Obligations.ResetVectorComesFromThePrg
  refine fun p img s h => ⟨fun h0 hlen => ?_, fun h0 hlen => ?_, fun h5 _ => pc_of_load_mapper5 h5 h,
    fun h0 hlen => ?_, fun h5 hlen => ?_⟩
  · rw [pc_of_load_mapper0 h0 h, if_neg (by omega)]
    rfl
  · rw [pc_of_load_mapper0 h0 h, if_pos hlen]
    rfl
  · rw [pc_of_load_mapper0 h0 h, if_neg (by omega), List.getD_eq_default _ _ (by omega),
      List.getD_eq_default _ _ (by omega)]
    rfl
  · rw [pc_of_load_mapper5 h5 h, List.getD_eq_default _ _ (by omega), List.getD_eq_default _ _ (by omega)]
    rfl

/-- Settles O60: the empty image lists no cell. -/
theorem resetIsTheEmptyCartridgeLoaded : Obligations.ResetIsTheEmptyCartridgeLoaded := by
  unfold Obligations.ResetIsTheEmptyCartridgeLoaded
  exact ⟨fun offset => load_mapper0 _ rfl, rfl, rfl, rfl, fun a => Memory.readAt_nil a.toNat⟩

end Sys2Proof.Machine
end
